-- ==== Sys2Proof/Word.lean ====
section
/-! DEFINITION. The widths of the block's values (00_scope.md rules R6, R10, R13). -/

namespace Sys2Proof

/-- A byte: 8 bits (rule R10). -/
abbrev Byte := BitVec 8

/-- A half-word, the width of STATUS and DATA: 16 bits (rules R10, R23, R24). -/
abbrev Half := BitVec 16

/-- A word: write data, read results, counts and totals, 32 bits (rules R10, R13, R38). -/
abbrev Word := BitVec 32

/-- A register-bus byte address: ADDR_WIDTH = 32 bits (rule R6). -/
abbrev Addr := BitVec 32

end Sys2Proof
end

