-- ==== Sys2Proof/Config.lean ====
section
/-! DEFINITION. The implementation parameters of 00_scope.md section 3, as a configuration record, and the two
parameters to which the spec gives no value. -/

namespace Sys2Proof

/-- What a queue operation on an unallocated queue does (`STOPPED_QUEUE_POLICY`, rules R12, R130). -/
inductive StoppedQueuePolicy where
  /-- QENQ and QDEQ answer FAIL, the queries answer as an empty queue. -/
  | fail
  /-- Every queue operation records the model fault QUEUE_INVALID. -/
  | fault
deriving DecidableEq, Repr

/-- What SERVICE does while the global gate is clear (`GATED_SERVICE`, rules R12, R181). -/
inductive GatedService where
  /-- The handler is not entered: nothing changes. -/
  | ignore
  /-- The routine runs regardless. -/
  | run
  /-- The model fault GATED_SERVICE is recorded. -/
  | fault
deriving DecidableEq, Repr

/-- The parameters of 00_scope.md section 3 that a model must be able to vary. `ADDR_WIDTH` and `SIZE_WIDTH` are the
widths `Addr` and `Word` (log entry 14). -/
structure Config where
  /-- `STATUS_BASE`, the byte address of STATUS (rule R7). -/
  statusBase : Addr
  /-- `QCAP`, the capacity in bytes of each queue (rule R9). -/
  qcap : Nat
  /-- `N_CALLERS`, the number of application callers (rule R11). -/
  nCallers : Nat
  /-- `START_MAY_FAIL` (rules R12, R151). -/
  startMayFail : Bool
  /-- `STOPPED_QUEUE_POLICY` (rules R12, R130). -/
  stoppedQueuePolicy : StoppedQueuePolicy
  /-- `GATED_SERVICE` (rules R12, R181). -/
  gatedService : GatedService
  /-- `QUEUE_PORT_EXTERNAL` (rules R12, R92, R130). -/
  queuePortExternal : Bool
deriving DecidableEq, Repr

/-- The constraints the spec puts on the parameters: `STATUS_BASE <= 2^ADDR_WIDTH - 4` (rule R7), `QCAP >= 1` (rule
R9), `N_CALLERS >= 1` (rule R11). -/
def Config.wf (c : Config) : Bool :=
  decide (c.statusBase.toNat ≤ 2 ^ 32 - 4) && decide (1 ≤ c.qcap) && decide (1 ≤ c.nCallers)

/-- `STATUS_BASE` is OPEN (rule R7, decision D3): no value is given here, and nothing can evaluate one. DESIGN CHOICE
(log entry 3). -/
opaque Config.openStatusBase : Addr

/-- `N_CALLERS` is OPEN, at least 1 (rule R11, decision D33): the number of callers beyond A1. DESIGN CHOICE (log
entry 3). -/
opaque Config.openFurtherCallers : Nat

/-- This hardware's parameters, the table of 00_scope.md section 3. The OPEN base is kept within the constraint of
rule R7. -/
def Config.hardware : Config where
  statusBase := if Config.openStatusBase.toNat ≤ 2 ^ 32 - 4 then Config.openStatusBase else 0
  qcap := 256
  nCallers := Config.openFurtherCallers + 1
  startMayFail := false
  stoppedQueuePolicy := .fail
  gatedService := .ignore
  queuePortExternal := false

end Sys2Proof
end

