-- ==== Sys2Proof/Syntax.lean ====
section
/-! DEFINITION. The operations of the block, one constructor per row of spec/opcode_table.json (30_encoding.md rules
R83 to R89). -/

namespace Sys2Proof

/-- The queue an FQ request names: bit 3 of the opcode byte (rule R85). -/
inductive QueueSel where
  /-- `sel = 0`: the receive queue RXQ. -/
  | rx
  /-- `sel = 1`: the transmit queue TXQ. -/
  | tx
deriving DecidableEq, Repr

/-- An operation with the operands its format names (rule R80). -/
inductive Instr where
  /-- RD8 (rule R110). -/
  | rd8 (addr : Addr)
  /-- RD16 (rule R111). -/
  | rd16 (addr : Addr)
  /-- RD32 (rule R112). -/
  | rd32 (addr : Addr)
  /-- WR8 (rule R113). -/
  | wr8 (addr : Addr) (wdata : Word)
  /-- WR16 (rule R114). -/
  | wr16 (addr : Addr) (wdata : Word)
  /-- WR32 (rule R115). -/
  | wr32 (addr : Addr) (wdata : Word)
  /-- QENQ (rule R131). -/
  | qenq (sel : QueueSel) (data : Byte)
  /-- QDEQ (rule R132). -/
  | qdeq (sel : QueueSel)
  /-- QFULL (rule R133). -/
  | qfull (sel : QueueSel)
  /-- QEMPTY (rule R134). -/
  | qempty (sel : QueueSel)
  /-- QLEN (rule R135). -/
  | qlen (sel : QueueSel)
  /-- START (rule R151). -/
  | start
  /-- STOP (rule R152). -/
  | stop
  /-- WRITEB (rule R153): `len` and a sequence of exactly `len` bytes (rule R86). -/
  | writeb (len : Word) (bytes : List Byte)
  /-- READB (rule R154). -/
  | readb (count : Word)
  /-- READNB (rule R155). -/
  | readnb (count : Word)
  /-- RXLEN (rule R156). -/
  | rxlen
  /-- TXLEN (rule R157). -/
  | txlen
  /-- TOTALRX (rule R158). -/
  | totalrx
  /-- RXERR (rule R159). -/
  | rxerr
  /-- TXERR (rule R160). -/
  | txerr
  /-- SERVICE (rule R180). -/
  | service
  /-- LFLAGS (rule R200). -/
  | lflags (m v : BitVec 3)
  /-- LRXDATA (rule R201). -/
  | lrxdata (b : Byte)
  /-- LPEEK (rule R202). -/
  | lpeek (k : BitVec 2)
  /-- LPOKE (rule R203). -/
  | lpoke (k : BitVec 2) (b : Byte)
deriving DecidableEq, Repr

end Sys2Proof
end

