-- ==== Sys2Proof/WellFormed.lean ====
section
/-! DEFINITION. Which terms of `Instr` are requests. Every field but WRITEB's two has a type that holds exactly its
operand (30_encoding.md rules R83 to R88). -/

namespace Sys2Proof

/-- WRITEB carries "a sequence of exactly `len` bytes" (rules R86, R91). Every other operation is well-formed. -/
def Instr.wellFormed : Instr → Bool
  | .rd8 _ => true
  | .rd16 _ => true
  | .rd32 _ => true
  | .wr8 _ _ => true
  | .wr16 _ _ => true
  | .wr32 _ _ => true
  | .qenq _ _ => true
  | .qdeq _ => true
  | .qfull _ => true
  | .qempty _ => true
  | .qlen _ => true
  | .start => true
  | .stop => true
  | .writeb len bytes => decide (bytes.length = len.toNat)
  | .readb _ => true
  | .readnb _ => true
  | .rxlen => true
  | .txlen => true
  | .totalrx => true
  | .rxerr => true
  | .txerr => true
  | .service => true
  | .lflags _ _ => true
  | .lrxdata _ => true
  | .lpeek _ => true
  | .lpoke _ _ => true

end Sys2Proof
end

