-- ==== Sys2Proof/Decode.lean ====
section
/-! DEFINITION. The decoder of requests, total on any bytes, and after it the encoder (30_encoding.md). A request's byte
image is its opcode byte and then its operand fields in the order the format lists them; a 32-bit operand is four bytes,
least significant first; an operand of fewer than 8 bits is the low bits of one byte whose other bits are 0. The opcode
byte is the spec's; the byte image of the operands is the model's own, DESIGN CHOICE, log entry 2. -/

namespace Sys2Proof

/-- Why bytes are the image of no request. -/
inductive DecodeError where
  /-- There is no opcode byte. -/
  | noOpcode
  /-- The opcode byte is marked reserved or illegal in the map of rule R89 (rule R92). -/
  | illegalOpcode (op : Byte)
  /-- Operand bytes of a legal opcode are missing. -/
  | truncated (op : Byte)
  /-- A 2- or 3-bit operand does not fit its width. -/
  | operandRange (op : Byte)
  /-- Bytes follow the last operand. -/
  | trailingBytes (op : Byte)
deriving DecidableEq, Repr

/-- What a decoder answers: the operation and the bytes after it, or the reason there is none. -/
abbrev Decoded := Except DecodeError (Instr × List Byte)

/-- `op[7:4]`, the class of an opcode byte (rule R82). -/
def opClass (op : Byte) : Nat := (op.extractLsb' 4 4).toNat

/-- `op[3:0]`, the function code of the formats FD, FS and FL (rules R86 to R88). -/
def opFn (op : Byte) : Nat := (op.extractLsb' 0 4).toNat

/-- `op[1:0]`, the width code of the format FB (rule R84). -/
def opWidthCode (op : Byte) : Nat := (op.extractLsb' 0 2).toNat

/-- `op[2:0]`, the function code of the format FQ (rule R85). -/
def opQueueFn (op : Byte) : Nat := (op.extractLsb' 0 3).toNat

/-- `op[3] = sel` of the format FQ: 0 is RXQ, 1 is TXQ (rule R85). -/
def opSel (op : Byte) : QueueSel := if op.getLsbD 3 then .tx else .rx

/-- One operand byte. -/
def withByte (op : Byte) (bs : List Byte) (k : Byte → List Byte → Decoded) : Decoded :=
  match bs with
  | b :: rest => k b rest
  | [] => .error (.truncated op)

/-- A 32-bit operand: four bytes, least significant first. -/
def withWord (op : Byte) (bs : List Byte) (k : Word → List Byte → Decoded) : Decoded :=
  match bs with
  | b0 :: b1 :: b2 :: b3 :: rest => k (b3 ++ b2 ++ b1 ++ b0) rest
  | _ => .error (.truncated op)

/-- An operand of `w` bits, `w < 8`, in the low bits of one byte. -/
def withSmall (w : Nat) (op : Byte) (bs : List Byte) (k : BitVec w → List Byte → Decoded) : Decoded :=
  withByte op bs fun b rest => if b.toNat < 2 ^ w then k (b.setWidth w) rest else .error (.operandRange op)

/-- Format FB (rules R83, R84): `op[2]` is 0, `op[3]` is W, `op[1:0]` the width code. -/
def decodeBus (op : Byte) (bs : List Byte) : Decoded :=
  if op.getLsbD 2 then .error (.illegalOpcode op)
  else match op.getLsbD 3, opWidthCode op with
    | false, 0 => withWord op bs fun a r => .ok (.rd8 a, r)
    | false, 1 => withWord op bs fun a r => .ok (.rd16 a, r)
    | false, 2 => withWord op bs fun a r => .ok (.rd32 a, r)
    | true, 0 => withWord op bs fun a r => withWord op r fun d r => .ok (.wr8 a d, r)
    | true, 1 => withWord op bs fun a r => withWord op r fun d r => .ok (.wr16 a d, r)
    | true, 2 => withWord op bs fun a r => withWord op r fun d r => .ok (.wr32 a d, r)
    | _, _ => .error (.illegalOpcode op)

/-- Format FQ (rule R85). -/
def decodeQueue (op : Byte) (bs : List Byte) : Decoded :=
  match opQueueFn op with
  | 0 => withByte op bs fun b r => .ok (.qenq (opSel op) b, r)
  | 1 => .ok (.qdeq (opSel op), bs)
  | 2 => .ok (.qfull (opSel op), bs)
  | 3 => .ok (.qempty (opSel op), bs)
  | 4 => .ok (.qlen (opSel op), bs)
  | _ => .error (.illegalOpcode op)

/-- WRITEB's operands: `len`, then exactly `len` bytes (rules R86, R91). -/
def decodeWriteb (op : Byte) (bs : List Byte) : Decoded :=
  withWord op bs fun len r =>
    if len.toNat ≤ r.length then .ok (.writeb len (r.take len.toNat), r.drop len.toNat)
    else .error (.truncated op)

/-- Format FD (rule R86). -/
def decodeDriver (op : Byte) (bs : List Byte) : Decoded :=
  match opFn op with
  | 0 => .ok (.start, bs)
  | 1 => .ok (.stop, bs)
  | 2 => decodeWriteb op bs
  | 3 => withWord op bs fun n r => .ok (.readb n, r)
  | 4 => withWord op bs fun n r => .ok (.readnb n, r)
  | 5 => .ok (.rxlen, bs)
  | 6 => .ok (.txlen, bs)
  | 7 => .ok (.totalrx, bs)
  | 8 => .ok (.rxerr, bs)
  | 9 => .ok (.txerr, bs)
  | _ => .error (.illegalOpcode op)

/-- Format FS (rule R87): `0x40` exactly. -/
def decodeService (op : Byte) (bs : List Byte) : Decoded :=
  match opFn op with
  | 0 => .ok (.service, bs)
  | _ => .error (.illegalOpcode op)

/-- Format FL (rule R88). -/
def decodeLine (op : Byte) (bs : List Byte) : Decoded :=
  match opFn op with
  | 0 => withSmall 3 op bs fun m r => withSmall 3 op r fun v r => .ok (.lflags m v, r)
  | 1 => withByte op bs fun b r => .ok (.lrxdata b, r)
  | 2 => withSmall 2 op bs fun k r => .ok (.lpeek k, r)
  | 3 => withSmall 2 op bs fun k r => withByte op r fun b r => .ok (.lpoke k b, r)
  | _ => .error (.illegalOpcode op)

/-- The decoder: the class nibble selects the format (rules R82, R89); every other byte is illegal (rules R92, R93). -/
def decode (bs : List Byte) : Decoded :=
  match bs with
  | [] => .error .noOpcode
  | op :: rest =>
    match opClass op with
    | 1 => decodeBus op rest
    | 2 => decodeQueue op rest
    | 3 => decodeDriver op rest
    | 4 => decodeService op rest
    | 5 => decodeLine op rest
    | _ => .error (.illegalOpcode op)

/-- The operation a whole request stands for: "a request is always one opcode byte plus the operands its format lists"
(rule R95), nothing after them. -/
def decodeRequest (bs : List Byte) : Except DecodeError Instr :=
  match decode bs with
  | .ok (i, []) => .ok i
  | .ok (_, _ :: _) => .error (.trailingBytes (bs.headD 0))
  | .error e => .error e

/-- The opcode byte of a queue operation: `0x20 | sel << 3 | fn` (rule R85). -/
def queueOpcode (sel : QueueSel) (fn : Byte) : Byte :=
  match sel with
  | .rx => 0x20#8 ||| fn
  | .tx => 0x28#8 ||| fn

/-- The opcode byte of an operation (rule R89). -/
def Instr.opcode : Instr → Byte
  | .rd8 _ => 0x10#8
  | .rd16 _ => 0x11#8
  | .rd32 _ => 0x12#8
  | .wr8 _ _ => 0x18#8
  | .wr16 _ _ => 0x19#8
  | .wr32 _ _ => 0x1A#8
  | .qenq sel _ => queueOpcode sel 0#8
  | .qdeq sel => queueOpcode sel 1#8
  | .qfull sel => queueOpcode sel 2#8
  | .qempty sel => queueOpcode sel 3#8
  | .qlen sel => queueOpcode sel 4#8
  | .start => 0x30#8
  | .stop => 0x31#8
  | .writeb _ _ => 0x32#8
  | .readb _ => 0x33#8
  | .readnb _ => 0x34#8
  | .rxlen => 0x35#8
  | .txlen => 0x36#8
  | .totalrx => 0x37#8
  | .rxerr => 0x38#8
  | .txerr => 0x39#8
  | .service => 0x40#8
  | .lflags _ _ => 0x50#8
  | .lrxdata _ => 0x51#8
  | .lpeek _ => 0x52#8
  | .lpoke _ _ => 0x53#8

/-- The four bytes of a 32-bit operand, least significant first. -/
def wordBytes (w : Word) : List Byte :=
  [w.extractLsb' 0 8, w.extractLsb' 8 8, w.extractLsb' 16 8, w.extractLsb' 24 8]

/-- The operand fields of an operation, in the order its format lists them (rules R83 to R88). -/
def Instr.operandBytes : Instr → List Byte
  | .rd8 addr => wordBytes addr
  | .rd16 addr => wordBytes addr
  | .rd32 addr => wordBytes addr
  | .wr8 addr wdata => wordBytes addr ++ wordBytes wdata
  | .wr16 addr wdata => wordBytes addr ++ wordBytes wdata
  | .wr32 addr wdata => wordBytes addr ++ wordBytes wdata
  | .qenq _ data => [data]
  | .qdeq _ => []
  | .qfull _ => []
  | .qempty _ => []
  | .qlen _ => []
  | .start => []
  | .stop => []
  | .writeb len bytes => wordBytes len ++ bytes
  | .readb count => wordBytes count
  | .readnb count => wordBytes count
  | .rxlen => []
  | .txlen => []
  | .totalrx => []
  | .rxerr => []
  | .txerr => []
  | .service => []
  | .lflags m v => [m.setWidth 8, v.setWidth 8]
  | .lrxdata b => [b]
  | .lpeek k => [k.setWidth 8]
  | .lpoke k b => [k.setWidth 8, b]

/-- The byte image of a request. -/
def encode (i : Instr) : List Byte := i.opcode :: i.operandBytes

/-- The bytes of an instruction whose bits, numbered as spec/opcode_table.json numbers them, are `w`: `nbits / 8` bytes
of `w`, then zeros up to the longest request that can follow (8 operand bytes; WRITEB has `len` more). -/
def tableBytes (nbits w : Nat) : List Byte :=
  (List.range (nbits / 8)).map (fun k => BitVec.ofNat 8 (w >>> (8 * k)))
    ++ List.replicate (if w % 256 = 0x32 then 8 + (w >>> 8) % 2 ^ 32 else 8) 0#8

/-- The instruction the decoder reads from a table word. -/
def decodeTableWord (nbits w : Nat) : Option Instr :=
  match decode (tableBytes nbits w) with
  | .ok (i, _) => some i
  | .error _ => none

/-- The request of a table word: its bytes without the zeros that belong to no operand; bytes the decoder refuses are
left as they are. -/
def tableRequest (nbits w : Nat) : List Byte :=
  match decode (tableBytes nbits w) with
  | .ok (_, rest) => (tableBytes nbits w).take ((tableBytes nbits w).length - rest.length)
  | .error _ => (tableBytes nbits w).take (nbits / 8)

end Sys2Proof
end

