-- ==== Sys2Proof/Machine/State.lean ====
section
/-! DEFINITION. The state of the block as plain data (10_state.md), the outcomes that stop the model, and the state right
after power-on reset (70_reset_and_hazards.md rule R260). -/

namespace Sys2Proof.Machine

/-- Bytes by index, in one canonical form: indexes strictly rising, no byte listed that equals what an unlisted index
reads as, which is 0x00. It holds the register store (index `k` is `store[k]`, rule R22) and each queue's `buf` (rule
R35). -/
abbrev Memory := List Host.Cell

/-- One bounded byte queue (rule R35): a ring of slots, the slot of the oldest byte, the slot the next enqueue writes,
and the occupancy. -/
structure Queue where
  buf : Memory
  front : Nat
  rear : Nat
  count : Nat
deriving DecidableEq, Repr

/-- The agents (rules R18, R41, R237). -/
inductive Agent where
  /-- Application caller `A<n>`, numbered from 1. -/
  | caller (n : Nat)
  /-- The interrupt-service context. -/
  | isr
  /-- The line side, standing for the serial hardware. -/
  | line
deriving DecidableEq, Repr

/-- The driver's lifecycle state (rule R43). -/
inductive Lifecycle where
  | stopped
  | starting
  | started
  | stopping
deriving DecidableEq, Repr

/-- The model faults the spec records (rule R226). Recording one is a next state of the block, not a stop (rule R227). -/
inductive FaultCode where
  /-- Code 1: reserved or illegal opcode byte, or a class the agent may not issue. -/
  | illegalOp
  /-- Code 2: START while not stopped. -/
  | doubleStart
  /-- Code 3: STOP while not started. -/
  | stopNotStarted
  /-- Code 4: STOP's destroy step while another agent uses a queue. -/
  | destroyInUse
  /-- Code 5: a queue operation while `qvalid = 0`, under the FAULT policy. -/
  | queueInvalid
  /-- Code 6: SERVICE while `GIE = 0`, under the FAULT policy. -/
  | gatedService
deriving DecidableEq, Repr

/-- A recorded fault: the issuing agent, the opcode byte of the request, the code (rule R226). -/
structure FaultRecord where
  agent : Agent
  op : Byte
  code : FaultCode
deriving DecidableEq, Repr

/-- `qres` (rules R99, R221). -/
inductive QueueResult where
  | ok
  | full
  | empty
  | fail
deriving DecidableEq, Repr

/-- `dres` (rules R99, R222). -/
inductive DriverResult where
  | ok
  | initializationFailure
  | transmitFailure
  | receiveFailure
deriving DecidableEq, Repr

/-- What an operation hands to its requester (rules R81, R99). -/
inductive Response where
  /-- `Unit`, the acknowledgement of bus writes, STOP, SERVICE, LFLAGS, LRXDATA and LPOKE. -/
  | ack
  /-- `rdata` of RD8, RD16, RD32. -/
  | rdata (v : Word)
  /-- `qres` of QENQ, and of a QDEQ that yields no byte. -/
  | qres (r : QueueResult)
  /-- `qres` OK with `qbyte`, of QDEQ. -/
  | qbyte (b : Byte)
  /-- `flag` of QFULL, QEMPTY, RXERR, TXERR. -/
  | flag (f : Bool)
  /-- `count` of QLEN, RXLEN, TXLEN. -/
  | count (n : Word)
  /-- `total` of TOTALRX. -/
  | total (n : Word)
  /-- `dres` of START and WRITEB, and of a READB or READNB that fails. -/
  | dres (r : DriverResult)
  /-- `dres` OK with `rbytes`, of READB. -/
  | rbytes (bytes : List Byte)
  /-- `dres` OK with `rbytes` and `count`, of READNB. -/
  | rpartial (bytes : List Byte) (n : Word)
  /-- `lbyte` of LPEEK. -/
  | lbyte (b : Byte)
deriving DecidableEq, Repr

/-- The byte lanes a multi-byte access has already performed, with their bytes, by rising lane number (rule R41). -/
abbrev Lanes := List (Nat × Byte)

/-- The next micro-step of a START (rules R41, R151). -/
inductive StartStep where
  | s1
  | s2
  /-- S3's read of STATUS. -/
  | s3Read (lanes : Lanes)
  /-- S3's write of STATUS, with the value `r` that was read. -/
  | s3Write (r : Word) (lanes : Lanes)
  | s4
deriving DecidableEq, Repr

/-- The next micro-step of a STOP (rules R41, R152). -/
inductive StopStep where
  | t1
  /-- T2's read of STATUS. -/
  | t2Read (lanes : Lanes)
  /-- T2's write of STATUS, with the value `r` that was read. -/
  | t2Write (r : Word) (lanes : Lanes)
  | t3
deriving DecidableEq, Repr

/-- A caller's in-flight operation with its progress (rule R41). Single-step operations are never in flight between
steps. -/
inductive CallerOp where
  /-- RD16 or RD32: `n` bytes at `addr` (rule R55). -/
  | busRead (addr : Addr) (n : Nat) (lanes : Lanes)
  /-- WR16 or WR32: `n` bytes of `wdata` at `addr` (rule R56). -/
  | busWrite (addr : Addr) (n : Nat) (wdata : Word) (lanes : Lanes)
  | start (next : StartStep)
  | stop (next : StopStep)
  /-- WRITEB: `i` is the index of the next byte to enqueue. -/
  | writeb (bytes : List Byte) (i : Nat)
  /-- READB: `out` holds the bytes obtained so far. -/
  | readb (count : Nat) (out : List Byte)
  /-- READNB: `out` holds the bytes obtained so far. -/
  | readnb (count : Nat) (out : List Byte)
deriving DecidableEq, Repr

/-- The phase of a SERVICE in progress, with the snapshot `v` of STATUS and the received byte `b` (rules R41, R180). -/
inductive ServicePhase where
  /-- V1, V2: the snapshot, byte lanes already read. -/
  | snapshot (lanes : Lanes)
  /-- V3's step for a snapshot with RxError. -/
  | markError (v : Half)
  /-- V4: read the data byte. -/
  | readData (v : Half)
  /-- V5: count the byte. -/
  | countByte (v : Half) (b : Byte)
  /-- V6: the full test. -/
  | testFull (v : Half) (b : Byte)
  /-- V6, full: set receiveError, the byte is dropped. -/
  | dropByte (v : Half) (b : Byte)
  /-- V7: enqueue the byte. -/
  | enqueue (v : Half) (b : Byte)
  /-- V7, the enqueue did not answer OK: set receiveError. -/
  | enqueueFailed (v : Half) (b : Byte)
  /-- V8: dequeue the byte to send. -/
  | dequeue (v : Half)
  /-- V9: write the byte `t` to DATA, byte lanes already written. -/
  | send (v : Half) (t : Byte) (lanes : Lanes)
  /-- V9, the dequeue answered FAIL: set transmitError. -/
  | dequeueFailed (v : Half)
deriving DecidableEq, Repr

/-- One turn of the environment's schedule: which agent moves and how far. `picks` has one entry for each micro-step
granted; the entry resolves what the spec leaves free in that step (the order of byte lanes, rule R61; `draw()`, rule
R151). DESIGN CHOICE, log entry 1: the interleaving of rules R17 and R68 as plain data. -/
inductive Turn where
  /-- The agent issues a request, given by its byte image (rule R80), and takes up to `picks.length` micro-steps of it. -/
  | issue (agent : Agent) (request : List Byte) (picks : List Nat)
  /-- The agent takes up to `picks.length` further micro-steps of its in-flight operation. -/
  | advance (agent : Agent) (picks : List Nat)
deriving DecidableEq, Repr

/-- The state of the block (10_state.md), its configuration, and the environment's schedule. -/
structure State where
  /-- The parameters (00_scope.md section 3); no step changes them. -/
  cfg : Config
  /-- The 4-byte register store, `store[k]` at index `k` (rule R22). -/
  store : Memory
  /-- RXQ (rule R35). -/
  rxq : Queue
  /-- TXQ (rule R35). -/
  txq : Queue
  /-- Whether the two queues are allocated (rule R37). -/
  qvalid : Bool
  /-- Rule R38. -/
  bytesReceived : Word
  /-- Rule R39. -/
  receiveError : Bool
  /-- Rule R40. -/
  transmitError : Bool
  /-- GIE, the global interrupt gate (rule R42). -/
  gie : Bool
  /-- Rule R43. -/
  lifecycle : Lifecycle
  /-- The callers with an operation in flight, by rising caller number; a caller not listed is idle (rule R41). -/
  callers : List (Nat × CallerOp)
  /-- The ISR: idle, or a SERVICE in progress (rule R41). -/
  isr : Option ServicePhase
  /-- The model faults recorded so far, without repeats, oldest first (rule R44). -/
  faults : List FaultRecord
  /-- The results the agents received, newest first (rules R81, R276). -/
  responses : List (Agent × Response)
  /-- The environment's turns still to come (the model's own field, log entry 1). -/
  schedule : List Turn
  /-- The agent whose turn it is: the `agent` of the request record (rule R80; the model's own field, log entry 11). -/
  active : Agent
  /-- The micro-steps granted in this turn (the model's own field, log entry 11). -/
  picks : List Nat
deriving DecidableEq, Repr

/-- Why the model stops. None of these is an event of the block: each marks a turn that no rule of the spec admits, so
stopping is SAFE (log entry 5). -/
inductive Fault where
  /-- Raised by every meaning and by the rejection of an illegal request: the turn is a request of a caller that does not
  exist (rule R237). Safe. -/
  | noSuchAgent (a : Agent)
  /-- Raised by every meaning and by the rejection of an illegal request: the agent's previous request has not returned
  (excluded by rule R80). Safe. -/
  | agentBusy (a : Agent)
  /-- Raised by the fetch of a request: its bytes are the image of no request, although its opcode byte is legal for the
  agent (the byte image is the model's own). Safe. -/
  | malformedRequest (e : DecodeError)
deriving DecidableEq, Repr

/-- Why an instruction has no meaning. -/
inductive Refusal where
  /-- Raised by an arm of `exec` whose instruction has no meaning yet; no arm of this model does. Safe. -/
  | notModelled (mnemonic : String)
deriving DecidableEq, Repr

/-- What fetching a turn yields: an instruction to execute, or an outcome that needs none. -/
inductive Fetched where
  | execute (i : Instr) (s : State)
  | done (o : Host.Outcome State Fault Refusal)

/-- A queue as power-on reset leaves it (rule R35). The contents of `buf` are unspecified: nothing is listed (DESIGN
CHOICE, log entry 6). -/
def Queue.reset : Queue where
  buf := []
  front := 0
  rear := 0
  count := 0

/-- The block right after power-on reset (rule R260), with this hardware's parameters and an empty schedule. -/
def State.reset : State where
  cfg := Config.hardware
  store := []
  rxq := Queue.reset
  txq := Queue.reset
  qvalid := false
  bytesReceived := 0
  receiveError := false
  transmitError := false
  gie := false
  lifecycle := .stopped
  callers := []
  isr := none
  faults := []
  responses := []
  schedule := []
  active := .caller 1
  picks := []

end Sys2Proof.Machine
end

