-- ==== Sys2Proof/Machine/Memory.lean ====
section
/-! DEFINITION. Lists of indexed entries in canonical form, and bytes by index over them. -/

namespace Sys2Proof.Machine

/-- The entry at index `k`. -/
def Table.find {α : Type} (k : Nat) : List (Nat × α) → Option α
  | [] => none
  | (j, v) :: t => if j = k then some v else Table.find k t

/-- The list without index `k`. -/
def Table.erase {α : Type} (k : Nat) : List (Nat × α) → List (Nat × α)
  | [] => []
  | (j, v) :: t => if j = k then Table.erase k t else (j, v) :: Table.erase k t

/-- A new entry, before the first greater index. -/
def Table.insert {α : Type} (k : Nat) (v : α) : List (Nat × α) → List (Nat × α)
  | [] => [(k, v)]
  | (j, w) :: t => if k < j then (k, v) :: (j, w) :: t else (j, w) :: Table.insert k v t

/-- The list with `v` at index `k`. -/
def Table.put {α : Type} (k : Nat) (v : α) (t : List (Nat × α)) : List (Nat × α) :=
  Table.insert k v (Table.erase k t)

/-- Indexes strictly rising. -/
def Table.sorted {α : Type} : List (Nat × α) → Bool
  | [] => true
  | (k, _) :: t => t.all (fun c => decide (k < c.1)) && Table.sorted t

/-- Every index is below `n`. -/
def Table.below {α : Type} (n : Nat) (t : List (Nat × α)) : Bool := t.all fun c => decide (c.1 < n)

/-- The byte at index `k`; an unlisted index reads as 0x00: the reset value of the store (rules R22, R260), and a queue
slot that nothing has written (DESIGN CHOICE, log entry 6). -/
def Memory.read (m : Memory) (k : Nat) : Byte := (Table.find k m).getD 0#8

/-- Store a byte at index `k`; storing what an unlisted index reads as removes the entry. -/
def Memory.write (m : Memory) (k : Nat) (v : Byte) : Memory :=
  if v = 0#8 then Table.erase k m else Table.put k v m

/-- The canonical form: indexes strictly rising, no entry equal to what an unlisted index reads as. -/
def Memory.wf (m : Memory) : Bool := Table.sorted m && m.all fun c => c.2 != 0#8

end Sys2Proof.Machine
end

