-- ==== Sys2Proof/Machine/Operands.lean ====
section
/-! DEFINITION. Operand assembly: bus addresses, byte lanes, the lane order of a multi-byte access, and the numeric
result and fault codes (20_memory.md, 30_encoding.md, 60_exceptions.md). -/

namespace Sys2Proof.Machine

/-- `DATA_BASE = STATUS_BASE + 2` (rule R8). -/
def dataBase (c : Config) : Addr := c.statusBase + 2#32

/-- `off(a) = (a - STATUS_BASE) mod 2^ADDR_WIDTH` (rule R51). -/
def busOffset (c : Config) (a : Addr) : Nat := (a - c.statusBase).toNat

/-- The address of the k-th byte of an access at `a`: `(a + k) mod 2^ADDR_WIDTH` (rule R52). -/
def byteAddr (a : Addr) (k : Nat) : Addr := a + BitVec.ofNat 32 k

/-- Byte lane `k` of a written value: `v[8k+7:8k]` (rules R56, R90). -/
def laneOf (v : Word) (k : Nat) : Byte := v.extractLsb' (8 * k) 8

/-- The byte lane `k` of an access in progress; a lane the access does not have is 0x00. -/
def laneByte (lanes : Lanes) (k : Nat) : Byte := (Table.find k lanes).getD 0#8

/-- The value read: `zext_32(byte_{n-1} : ... : byte_0)`, little-endian (rules R55, R57). -/
def assemble (lanes : Lanes) : Word :=
  laneByte lanes 3 ++ laneByte lanes 2 ++ laneByte lanes 1 ++ laneByte lanes 0

/-- The lanes of an `n`-byte access that are still to be performed. -/
def lanesLeft (n : Nat) (lanes : Lanes) : List Nat :=
  (List.range n).filter fun k => (Table.find k lanes).isNone

/-- The lane performed next. The order is open (rule R61): the pick chooses among the lanes that are left. -/
def nextLane (n : Nat) (lanes : Lanes) (pick : Nat) : Nat :=
  (lanesLeft n lanes).getD (pick % (lanesLeft n lanes).length) 0

/-- Whether every lane of an `n`-byte access has been performed. -/
def lanesDone (n : Nat) (lanes : Lanes) : Bool := (lanesLeft n lanes).isEmpty

/-- The numeric code of a queue result (rule R99). -/
def QueueResult.code : QueueResult → BitVec 2
  | .ok => 0#2
  | .full => 1#2
  | .empty => 2#2
  | .fail => 3#2

/-- The numeric code of a driver result (rules R99, R222). -/
def DriverResult.code : DriverResult → BitVec 2
  | .ok => 0#2
  | .initializationFailure => 1#2
  | .transmitFailure => 2#2
  | .receiveFailure => 3#2

/-- The numeric code of a model fault (rule R226). -/
def FaultCode.code : FaultCode → Nat
  | .illegalOp => 1
  | .doubleStart => 2
  | .stopNotStarted => 3
  | .destroyInUse => 4
  | .queueInvalid => 5
  | .gatedService => 6

/-- A count result, as an unsigned SIZE_WIDTH-bit value (rules R13, R91). -/
def countResult (n : Nat) : Word := BitVec.ofNat 32 n

end Sys2Proof.Machine
end

