-- ==== Sys2Proof/Machine/Flags.lean ====
section
/-! DEFINITION. STATUS and DATA as views of the store, the fields of STATUS, their masks, and the interrupt-request
output (10_state.md rules R22 to R34, 60_exceptions.md rule R230). -/

namespace Sys2Proof.Machine

/-- `WMASK = 0xE000`: the STATUS bits software may write (rule R32). -/
def writableMask : Half := 0xE000#16

/-- `0x1FFF`: the STATUS bits software may only read (rule R32). -/
def readOnlyMask : Half := 0x1FFF#16

/-- The software write of `store[1]`: bits 13 to 15 of STATUS from the lane, the others kept (rules R32, R54). -/
def maskStatusHigh (old v : Byte) : Byte := (old &&& 0x1F#8) ||| (v &&& 0xE0#8)

/-- STATUS is `store[1]:store[0]` (rule R23). -/
def State.status (s : State) : Half := s.store.read 1 ++ s.store.read 0

/-- DATA is `store[3]:store[2]` (rule R24). -/
def State.data (s : State) : Half := s.store.read 3 ++ s.store.read 2

/-- STATUS[0] (rule R25). -/
def rxNotEmpty (v : Half) : Bool := v.getLsbD 0

/-- STATUS[1] (rule R26). -/
def txNotFull (v : Half) : Bool := v.getLsbD 1

/-- STATUS[2] (rule R27). -/
def rxError (v : Half) : Bool := v.getLsbD 2

/-- STATUS[12:3], reserved (rule R28). -/
def statusReserved (v : Half) : BitVec 10 := v.extractLsb' 3 10

/-- STATUS[13] (rule R29). -/
def txEnable (v : Half) : Bool := v.getLsbD 13

/-- STATUS[14] (rule R30). -/
def rxEnable (v : Half) : Bool := v.getLsbD 14

/-- STATUS[15] (rule R31). -/
def interruptEnable (v : Half) : Bool := v.getLsbD 15

/-- What START writes back to STATUS: `r | 0xE000` (rule R151, S3). -/
def enableBits (r : Word) : Word := r ||| 0xE000#32

/-- What STOP writes back to STATUS: `r & 0x1FFF` (rule R152, T2). -/
def clearBits (r : Word) : Word := r &&& 0x1FFF#32

/-- LFLAGS's update of `store[0]`: `(store[0] & ~zext_8(m)) | (zext_8(v) & zext_8(m))` (rule R200). -/
def driveFlags (old : Byte) (m v : BitVec 3) : Byte :=
  (old &&& ~~~(m.setWidth 8)) ||| (v.setWidth 8 &&& m.setWidth 8)

/-- The receive check of SERVICE takes the error branch: RxError (rule R183 (1)). -/
def receivesError (v : Half) : Bool := rxError v

/-- The receive check of SERVICE takes the byte: RxNotEmpty and RxEnable, and no RxError (rule R183 (2)). -/
def receivesByte (v : Half) : Bool := !rxError v && (rxNotEmpty v && rxEnable v)

/-- The transmit check of SERVICE holds: TxNotFull and TxEnable (rule R184). -/
def transmits (v : Half) : Bool := txNotFull v && txEnable v

/-- The interrupt-request output, combinational, no state of its own (rules R230, R231). -/
def State.irq (s : State) : Bool :=
  s.gie && interruptEnable s.status
    && (rxError s.status || (rxNotEmpty s.status && rxEnable s.status) || (txNotFull s.status && txEnable s.status))

end Sys2Proof.Machine
end

