-- ==== Sys2Proof/Machine/Ops.lean ====
section
/-! DEFINITION. The named operations over the state: the byte primitives (20_memory.md), the queue port (41_queue.md),
the driver scalars, the agents, handing over a result, recording a model fault (60_exceptions.md rule R227, the one
operation every fault goes through), and the admission of a request (30_encoding.md rules R82, R92, R93). -/

namespace Sys2Proof.Machine

/-! ### The register store -/

/-- `ByteRead(a)` (rule R53): the store byte the window names, 0x00 outside the window. -/
def byteRead (a : Addr) (s : State) : Byte :=
  if busOffset s.cfg a < 4 then s.store.read (busOffset s.cfg a) else 0#8

/-- The store after one byte lane of a software bus write at window offset `k` (rule R54). -/
def writeStoreByte (k : Nat) (v : Byte) (m : Memory) : Memory :=
  match k with
  | 0 => m
  | 1 => m.write 1 (maskStatusHigh (m.read 1) v)
  | 2 => m.write 2 v
  | 3 => m.write 3 0#8
  | _ => m

/-- `ByteWrite(a, v)` (rule R54). -/
def byteWrite (a : Addr) (v : Byte) (s : State) : State :=
  { s with store := writeStoreByte (busOffset s.cfg a) v s.store }

/-- `MemRead(a, n)` with no other step between its byte reads (rule R55). -/
def memRead (a : Addr) (n : Nat) (s : State) : Word :=
  assemble ((List.range n).map fun k => (k, byteRead (byteAddr a k) s))

/-- `MemWrite(a, n, v)` with no other step between its byte writes, in ascending order (rule R56). -/
def memWrite (a : Addr) (n : Nat) (v : Word) (s : State) : State :=
  (List.range n).foldl (fun t k => byteWrite (byteAddr a k) (laneOf v k) t) s

/-- One byte step of a MemRead in progress: the lane the pick chooses (rules R55, R60, R61). -/
def readLane (a : Addr) (n : Nat) (lanes : Lanes) (pick : Nat) (s : State) : Lanes :=
  Table.put (nextLane n lanes pick) (byteRead (byteAddr a (nextLane n lanes pick)) s) lanes

/-- The lane one byte step of a MemWrite in progress performs (rules R56, R60, R61). -/
def markLane (v : Word) (n : Nat) (lanes : Lanes) (pick : Nat) : Lanes :=
  Table.put (nextLane n lanes pick) (laneOf v (nextLane n lanes pick)) lanes

/-- The state after that byte step. -/
def writeLane (a : Addr) (v : Word) (n : Nat) (lanes : Lanes) (pick : Nat) (s : State) : State :=
  byteWrite (byteAddr a (nextLane n lanes pick)) (laneOf v (nextLane n lanes pick)) s

/-- `LineRead(k)` (rule R67). -/
def lineRead (k : BitVec 2) (s : State) : Byte := s.store.read k.toNat

/-- `LineWrite(k, v)` (rule R67): unmasked, `store[3]` forced to 0. -/
def lineWrite (k : BitVec 2) (v : Byte) (s : State) : State :=
  { s with store := s.store.write k.toNat (if k = 3#2 then 0#8 else v) }

/-! ### The queue port -/

/-- The queue `sel` names (rule R85). -/
def State.queue (s : State) (sel : QueueSel) : Queue :=
  match sel with
  | .rx => s.rxq
  | .tx => s.txq

/-- Replace the queue `sel` names. -/
def State.setQueue (s : State) (sel : QueueSel) (q : Queue) : State :=
  match sel with
  | .rx => { s with rxq := q }
  | .tx => { s with txq := q }

/-- The abstract content of a queue, oldest first: `[Q.buf[(Q.front + i) mod QCAP] for i in 0..Q.count-1]` (rule R35). -/
def Queue.items (qcap : Nat) (q : Queue) : List Byte :=
  (List.range q.count).map fun i => q.buf.read ((q.front + i) % qcap)

/-- The ring after an accepted enqueue (rule R131). -/
def Queue.push (qcap : Nat) (b : Byte) (q : Queue) : Queue where
  buf := q.buf.write q.rear b
  front := q.front
  rear := (q.rear + 1) % qcap
  count := q.count + 1

/-- The ring after a dequeue that yields a byte (rule R132). -/
def Queue.pop (qcap : Nat) (q : Queue) : Queue where
  buf := q.buf
  front := (q.front + 1) % qcap
  rear := q.rear
  count := q.count - 1

/-- The byte a dequeue yields: the oldest one (rule R132). -/
def Queue.oldest (q : Queue) : Byte := q.buf.read q.front

/-- A queue as construction leaves it: empty, both cursors 0 (rules R136, R151 S1). -/
def Queue.construct (q : Queue) : Queue := { q with front := 0, rear := 0, count := 0 }

/-- A queue step records QUEUE_INVALID: unallocated queues under the FAULT policy (rule R130). -/
def State.queueDenied (s : State) : Bool := !s.qvalid && decide (s.cfg.stoppedQueuePolicy = .fault)

/-- QENQ's answer (rules R130, R131), for a step that is not denied. -/
def enqAnswer (sel : QueueSel) (s : State) : QueueResult :=
  if s.qvalid then (if (s.queue sel).count = s.cfg.qcap then .full else .ok) else .fail

/-- QENQ's effect (rule R131): the byte goes in exactly when the answer is OK. -/
def enqState (sel : QueueSel) (b : Byte) (s : State) : State :=
  match enqAnswer sel s with
  | .ok => s.setQueue sel ((s.queue sel).push s.cfg.qcap b)
  | .full => s
  | .empty => s
  | .fail => s

/-- QDEQ's answer (rules R130, R132), for a step that is not denied. -/
def deqAnswer (sel : QueueSel) (s : State) : QueueResult :=
  if s.qvalid then (if (s.queue sel).count = 0 then .empty else .ok) else .fail

/-- The byte a QDEQ that answers OK yields (rule R132). -/
def deqByte (sel : QueueSel) (s : State) : Byte := (s.queue sel).oldest

/-- QDEQ's effect (rule R132): the byte leaves exactly when the answer is OK. -/
def deqState (sel : QueueSel) (s : State) : State :=
  match deqAnswer sel s with
  | .ok => s.setQueue sel ((s.queue sel).pop s.cfg.qcap)
  | .full => s
  | .empty => s
  | .fail => s

/-- QFULL's answer (rules R130, R133). -/
def queueFull (sel : QueueSel) (s : State) : Bool := s.qvalid && decide ((s.queue sel).count = s.cfg.qcap)

/-- QEMPTY's answer (rules R130, R134). -/
def queueEmpty (sel : QueueSel) (s : State) : Bool := !s.qvalid || decide ((s.queue sel).count = 0)

/-- QLEN's answer (rules R130, R135). -/
def queueLen (sel : QueueSel) (s : State) : Nat := if s.qvalid then (s.queue sel).count else 0

/-! ### The driver scalars -/

/-- `bytesReceived <- (bytesReceived + 1) mod 2^32` (rules R38, R180). -/
def countReceived (s : State) : State := { s with bytesReceived := s.bytesReceived + 1#32 }

/-- `receiveError <- 1` (rules R39, R223). -/
def flagReceiveError (s : State) : State := { s with receiveError := true }

/-- `transmitError <- 1` (rules R40, R224). -/
def flagTransmitError (s : State) : State := { s with transmitError := true }

/-- START's S1: both queues constructed, `qvalid`, STARTING (rules R136, R151). -/
def allocateQueues (s : State) : State :=
  { s with rxq := s.rxq.construct, txq := s.txq.construct, qvalid := true, lifecycle := .starting }

/-- START's S2 (rule R151). -/
def clearScalars (s : State) : State :=
  { s with bytesReceived := 0#32, receiveError := false, transmitError := false }

/-- START's S4 (rule R151). -/
def openGate (s : State) : State := { s with gie := true, lifecycle := .started }

/-- STOP's T1 (rule R152). -/
def closeGate (s : State) : State := { s with gie := false, lifecycle := .stopping }

/-- STOP's T3: both queues destroyed (rules R136, R152; log entry 7). -/
def destroyQueues (s : State) : State := { s with qvalid := false, lifecycle := .stopped }

/-! ### The agents -/

/-- The caller's in-flight operation, if it has one (rule R41). -/
def State.callerOp (s : State) (n : Nat) : Option CallerOp := Table.find n s.callers

/-- Put a caller's operation in flight, or advance its progress. -/
def State.setCaller (s : State) (n : Nat) (op : CallerOp) : State := { s with callers := Table.put n op s.callers }

/-- Put the ISR into a phase of SERVICE. -/
def State.setIsr (s : State) (p : ServicePhase) : State := { s with isr := some p }

/-- The agent's operation is over: it is idle. -/
def State.setIdle (s : State) (a : Agent) : State :=
  match a with
  | .caller n => { s with callers := Table.erase n s.callers }
  | .isr => { s with isr := none }
  | .line => s

/-- The agent exists: the callers are `A1` to `A<N_CALLERS>` with `N_CALLERS >= 1` (rules R11, R237). -/
def State.agentExists (s : State) (a : Agent) : Bool :=
  match a with
  | .caller n => decide (n = 1) || (decide (1 ≤ n) && decide (n ≤ s.cfg.nCallers))
  | .isr => true
  | .line => true

/-- The agent has no operation in flight (rule R41); the line side never has one. -/
def State.agentIdle (s : State) (a : Agent) : Bool :=
  match a with
  | .caller n => (s.callerOp n).isNone
  | .isr => s.isr.isNone
  | .line => true

/-- WRITEB, READB and READNB are the operations `in_use()` counts (rule R152). -/
def CallerOp.usesQueue : CallerOp → Bool
  | .busRead _ _ _ => false
  | .busWrite _ _ _ _ => false
  | .start _ => false
  | .stop _ => false
  | .writeb _ _ => true
  | .readb _ _ => true
  | .readnb _ _ => true

/-- `in_use()` for a STOP of caller `n`: another caller has an in-flight WRITEB, READB or READNB, or the ISR has a
SERVICE in progress (rule R152). -/
def State.inUse (s : State) (n : Nat) : Bool :=
  s.callers.any (fun c => decide (c.1 ≠ n) && c.2.usesQueue) || s.isr.isSome

/-- `return r`: the operation ends and its requester receives `r` (rules R16, R81). -/
def State.answer (s : State) (a : Agent) (r : Response) : State :=
  { s.setIdle a with responses := (a, r) :: s.responses }

/-! ### Model faults -/

/-- `faults` with one more record; it is a set (rule R44). -/
def addFault (f : FaultRecord) (fs : List FaultRecord) : List FaultRecord := if f ∈ fs then fs else fs ++ [f]

/-- `raise Fault(code)` in a step of agent `a`'s request with opcode byte `op`: the step has no other effect, the agent
becomes idle, the fault stays recorded (rules R226, R227). -/
def State.raiseFault (s : State) (a : Agent) (op : Byte) (code : FaultCode) : State :=
  { s.setIdle a with faults := addFault ⟨a, op, code⟩ s.faults }

/-! ### Admission -/

/-- The agents a class of opcode bytes may be issued by (rules R82, R92). -/
def mayIssue (c : Config) (a : Agent) (op : Byte) : Bool :=
  match opClass op, a with
  | 1, .caller _ => true
  | 2, .caller _ => c.queuePortExternal
  | 3, .caller _ => true
  | 4, .isr => true
  | 5, .line => true
  | _, _ => false

/-- An illegal request records ILLEGAL_OP, changes no other state and returns nothing (rule R93). -/
def rejectIllegal (op : Byte) (s : State) : State := s.raiseFault s.active op .illegalOp

/-- The agent whose turn it is may issue a request now: it exists (rule R237) and its previous request has returned
(rule R80). Otherwise the turn is none of the spec's, and the model stops (log entry 5). -/
def present (s : State) (k : State → Host.Outcome State Fault Refusal) : Host.Outcome State Fault Refusal :=
  if s.agentExists s.active then
    if s.agentIdle s.active then k s else .fault (.agentBusy s.active)
  else .fault (.noSuchAgent s.active)

/-- Admission of a decoded request: ILLEGAL_OP is decided first, and then no step runs (rules R92, R93, R228). -/
def accept (op : Byte) (s : State) (run : State → State) : Host.Outcome State Fault Refusal :=
  present s fun s => if mayIssue s.cfg s.active op then .next (run s) else .next (rejectIllegal op s)

end Sys2Proof.Machine
end

