-- ==== Sys2Proof/Machine/Sequencer.lean ====
section
/-! DEFINITION. The micro-steps of the multi-step operations: one atomic step of one agent (00_scope.md rule R17), by the
agent's sequencing state (10_state.md rule R41). Pseudocode outside `step` blocks is computed with the step before it.
An agent with nothing in flight does nothing. -/

namespace Sys2Proof.Machine

/-! ### The register bus (40_register_bank.md) -/

/-- One byte step of RD16 or RD32 (rules R55, R111, R112). -/
def stepBusRead (pick n : Nat) (addr : Addr) (w : Nat) (lanes : Lanes) (s : State) : State :=
  if lanesDone w (readLane addr w lanes pick s) then
    s.answer (.caller n) (.rdata (assemble (readLane addr w lanes pick s)))
  else s.setCaller n (.busRead addr w (readLane addr w lanes pick s))

/-- One byte step of WR16 or WR32 (rules R56, R114, R115). -/
def stepBusWrite (pick n : Nat) (addr : Addr) (w : Nat) (wdata : Word) (lanes : Lanes) (s : State) : State :=
  if lanesDone w (markLane wdata w lanes pick) then
    (writeLane addr wdata w lanes pick s).answer (.caller n) .ack
  else (writeLane addr wdata w lanes pick s).setCaller n (.busWrite addr w wdata (markLane wdata w lanes pick))

/-! ### START and STOP (42_driver.md) -/

/-- `draw() == fail` (rule R151): a free choice, which the pick makes. -/
def drawFails (pick : Nat) : Bool := decide (pick ≠ 0)

/-- START's S1 (rules R150, R151). -/
def stepStart1 (pick n : Nat) (s : State) : State :=
  if s.lifecycle = .stopped then
    if s.cfg.startMayFail && drawFails pick then s.answer (.caller n) (.dres .initializationFailure)
    else (allocateQueues s).setCaller n (.start .s2)
  else s.raiseFault (.caller n) 0x30#8 .doubleStart

/-- A byte step of START's read of STATUS in S3 (rules R59, R151). -/
def stepStart3Read (pick n : Nat) (lanes : Lanes) (s : State) : State :=
  if lanesDone 2 (readLane s.cfg.statusBase 2 lanes pick s) then
    s.setCaller n (.start (.s3Write (assemble (readLane s.cfg.statusBase 2 lanes pick s)) []))
  else s.setCaller n (.start (.s3Read (readLane s.cfg.statusBase 2 lanes pick s)))

/-- A byte step of START's write of STATUS in S3 (rules R59, R151). -/
def stepStart3Write (pick n : Nat) (r : Word) (lanes : Lanes) (s : State) : State :=
  if lanesDone 2 (markLane (enableBits r) 2 lanes pick) then
    (writeLane s.cfg.statusBase (enableBits r) 2 lanes pick s).setCaller n (.start .s4)
  else
    (writeLane s.cfg.statusBase (enableBits r) 2 lanes pick s).setCaller n
      (.start (.s3Write r (markLane (enableBits r) 2 lanes pick)))

/-- One micro-step of START (rule R151). -/
def stepStart (pick n : Nat) (next : StartStep) (s : State) : State :=
  match next with
  | .s1 => stepStart1 pick n s
  | .s2 => (clearScalars s).setCaller n (.start (.s3Read []))
  | .s3Read lanes => stepStart3Read pick n lanes s
  | .s3Write r lanes => stepStart3Write pick n r lanes s
  | .s4 => (openGate s).answer (.caller n) (.dres .ok)

/-- STOP's T1 (rules R150, R152). -/
def stepStop1 (n : Nat) (s : State) : State :=
  if s.lifecycle = .started then (closeGate s).setCaller n (.stop (.t2Read []))
  else s.raiseFault (.caller n) 0x31#8 .stopNotStarted

/-- A byte step of STOP's read of STATUS in T2 (rules R59, R152). -/
def stepStop2Read (pick n : Nat) (lanes : Lanes) (s : State) : State :=
  if lanesDone 2 (readLane s.cfg.statusBase 2 lanes pick s) then
    s.setCaller n (.stop (.t2Write (assemble (readLane s.cfg.statusBase 2 lanes pick s)) []))
  else s.setCaller n (.stop (.t2Read (readLane s.cfg.statusBase 2 lanes pick s)))

/-- A byte step of STOP's write of STATUS in T2 (rules R59, R152). -/
def stepStop2Write (pick n : Nat) (r : Word) (lanes : Lanes) (s : State) : State :=
  if lanesDone 2 (markLane (clearBits r) 2 lanes pick) then
    (writeLane s.cfg.statusBase (clearBits r) 2 lanes pick s).setCaller n (.stop .t3)
  else
    (writeLane s.cfg.statusBase (clearBits r) 2 lanes pick s).setCaller n
      (.stop (.t2Write r (markLane (clearBits r) 2 lanes pick)))

/-- STOP's T3 (rules R136, R152). -/
def stepStop3 (n : Nat) (s : State) : State :=
  if s.inUse n then s.raiseFault (.caller n) 0x31#8 .destroyInUse
  else (destroyQueues s).answer (.caller n) .ack

/-- One micro-step of STOP (rule R152). -/
def stepStop (pick n : Nat) (next : StopStep) (s : State) : State :=
  match next with
  | .t1 => stepStop1 n s
  | .t2Read lanes => stepStop2Read pick n lanes s
  | .t2Write r lanes => stepStop2Write pick n r lanes s
  | .t3 => stepStop3 n s

/-! ### WRITEB, READB, READNB (42_driver.md) -/

/-- The head of WRITEB's loop: return OK when every byte is in the queue, else wait for the next step (rule R153). -/
def loopWriteb (n : Nat) (bytes : List Byte) (i : Nat) (s : State) : State :=
  if i < bytes.length then s.setCaller n (.writeb bytes i) else s.answer (.caller n) (.dres .ok)

/-- One attempt of WRITEB: a full queue is a retry that changes nothing (rules R153, R161). -/
def stepWriteb (n : Nat) (bytes : List Byte) (i : Nat) (s : State) : State :=
  if s.queueDenied then s.raiseFault (.caller n) 0x32#8 .queueInvalid
  else match enqAnswer .tx s with
    | .ok => loopWriteb n bytes (i + 1) (enqState .tx (bytes.getD i 0#8) s)
    | .full => s
    | .empty => s
    | .fail => s.answer (.caller n) (.dres .transmitFailure)

/-- The head of READB's loop (rule R154). -/
def loopReadb (n count : Nat) (out : List Byte) (s : State) : State :=
  if out.length < count then s.setCaller n (.readb count out) else s.answer (.caller n) (.rbytes out)

/-- One attempt of READB: an empty queue is a retry that changes nothing; on FAIL the bytes obtained are lost (rules
R154, R161). -/
def stepReadb (n count : Nat) (out : List Byte) (s : State) : State :=
  if s.queueDenied then s.raiseFault (.caller n) 0x33#8 .queueInvalid
  else match deqAnswer .rx s with
    | .ok => loopReadb n count (out ++ [deqByte .rx s]) (deqState .rx s)
    | .full => s
    | .empty => s
    | .fail => s.answer (.caller n) (.dres .receiveFailure)

/-- The head of READNB's loop (rule R155). -/
def loopReadnb (n count : Nat) (out : List Byte) (s : State) : State :=
  if out.length < count then s.setCaller n (.readnb count out)
  else s.answer (.caller n) (.rpartial out (countResult out.length))

/-- One attempt of READNB: an empty queue ends the call with the bytes obtained (rule R155). -/
def stepReadnb (n count : Nat) (out : List Byte) (s : State) : State :=
  if s.queueDenied then s.raiseFault (.caller n) 0x34#8 .queueInvalid
  else match deqAnswer .rx s with
    | .ok => loopReadnb n count (out ++ [deqByte .rx s]) (deqState .rx s)
    | .full => s
    | .empty => s.answer (.caller n) (.rpartial out (countResult out.length))
    | .fail => s.answer (.caller n) (.dres .receiveFailure)

/-! ### SERVICE (43_service.md) -/

/-- SERVICE goes on with a phase, or returns `Unit` (rules R180, R234). -/
def serviceGoto (p : Option ServicePhase) (s : State) : State :=
  match p with
  | some q => s.setIsr q
  | none => s.answer .isr .ack

/-- The transmit check of a snapshot (rule R184). -/
def transmitPhase (v : Half) : Option ServicePhase := if transmits v then some (.dequeue v) else none

/-- The receive check of a snapshot, and the transmit check where it does nothing (rules R183, R185). -/
def receivePhase (v : Half) : Option ServicePhase :=
  if receivesError v then some (.markError v)
  else if receivesByte v then some (.readData v)
  else transmitPhase v

/-- A byte step of the snapshot, V1 or V2 (rule R182). -/
def stepSnapshot (pick : Nat) (lanes : Lanes) (s : State) : State :=
  if lanesDone 2 (readLane s.cfg.statusBase 2 lanes pick s) then
    serviceGoto (receivePhase ((assemble (readLane s.cfg.statusBase 2 lanes pick s)).setWidth 16)) s
  else s.setIsr (.snapshot (readLane s.cfg.statusBase 2 lanes pick s))

/-- V6's full test (rule R183 (2)). -/
def stepTestFull (v : Half) (b : Byte) (s : State) : State :=
  if s.queueDenied then s.raiseFault .isr 0x40#8 .queueInvalid
  else if queueFull .rx s then s.setIsr (.dropByte v b)
  else s.setIsr (.enqueue v b)

/-- V7's enqueue (rule R183 (2)). -/
def stepEnqueue (v : Half) (b : Byte) (s : State) : State :=
  if s.queueDenied then s.raiseFault .isr 0x40#8 .queueInvalid
  else match enqAnswer .rx s with
    | .ok => serviceGoto (transmitPhase v) (enqState .rx b s)
    | .full => s.setIsr (.enqueueFailed v b)
    | .empty => s.setIsr (.enqueueFailed v b)
    | .fail => s.setIsr (.enqueueFailed v b)

/-- V8's dequeue (rule R184). -/
def stepDequeue (v : Half) (s : State) : State :=
  if s.queueDenied then s.raiseFault .isr 0x40#8 .queueInvalid
  else match deqAnswer .tx s with
    | .ok => (deqState .tx s).setIsr (.send v (deqByte .tx s) [])
    | .full => s.setIsr (.dequeueFailed v)
    | .empty => s.answer .isr .ack
    | .fail => s.setIsr (.dequeueFailed v)

/-- A byte step of V9's `MemWrite(DATA_BASE, 2, zext_32(t))` (rules R59, R184). -/
def stepSend (pick : Nat) (v : Half) (t : Byte) (lanes : Lanes) (s : State) : State :=
  if lanesDone 2 (markLane (t.setWidth 32) 2 lanes pick) then
    (writeLane (dataBase s.cfg) (t.setWidth 32) 2 lanes pick s).answer .isr .ack
  else
    (writeLane (dataBase s.cfg) (t.setWidth 32) 2 lanes pick s).setIsr
      (.send v t (markLane (t.setWidth 32) 2 lanes pick))

/-- One micro-step of SERVICE (rule R180). -/
def stepService (pick : Nat) (p : ServicePhase) (s : State) : State :=
  match p with
  | .snapshot lanes => stepSnapshot pick lanes s
  | .markError v => serviceGoto (transmitPhase v) (countReceived (flagReceiveError s))
  | .readData v => s.setIsr (.countByte v (byteRead (dataBase s.cfg) s))
  | .countByte v b => (countReceived s).setIsr (.testFull v b)
  | .testFull v b => stepTestFull v b s
  | .dropByte v _ => serviceGoto (transmitPhase v) (flagReceiveError s)
  | .enqueue v b => stepEnqueue v b s
  | .enqueueFailed v _ => serviceGoto (transmitPhase v) (flagReceiveError s)
  | .dequeue v => stepDequeue v s
  | .send v t lanes => stepSend pick v t lanes s
  | .dequeueFailed _ => (flagTransmitError s).answer .isr .ack

/-! ### One micro-step of an agent, and the micro-steps of a turn -/

/-- One micro-step of a caller's operation. -/
def stepCaller (pick n : Nat) (op : CallerOp) (s : State) : State :=
  match op with
  | .busRead addr w lanes => stepBusRead pick n addr w lanes s
  | .busWrite addr w wdata lanes => stepBusWrite pick n addr w wdata lanes s
  | .start next => stepStart pick n next s
  | .stop next => stepStop pick n next s
  | .writeb bytes i => stepWriteb n bytes i s
  | .readb count out => stepReadb n count out s
  | .readnb count out => stepReadnb n count out s

/-- One micro-step of an agent; nothing when it has no operation in flight. -/
def microStep (a : Agent) (pick : Nat) (s : State) : State :=
  match a with
  | .caller n =>
    match s.callerOp n with
    | some op => stepCaller pick n op s
    | none => s
  | .isr =>
    match s.isr with
    | some p => stepService pick p s
    | none => s
  | .line => s

/-- The micro-steps of a turn, one for each pick. -/
def runAgent (a : Agent) : List Nat → State → State
  | [], s => s
  | p :: ps, s => runAgent a ps (microStep a p s)

/-- The active agent takes the micro-steps granted to this turn. -/
def runTurn (s : State) : State := runAgent s.active s.picks s

/-- The active caller's operation is put in flight and takes the micro-steps granted to this turn. -/
def launch (op : CallerOp) (s : State) : State :=
  match s.active with
  | .caller n => runTurn (s.setCaller n op)
  | .isr => s
  | .line => s

end Sys2Proof.Machine
end

