-- ==== Sys2Proof/Machine/Bus.lean ====
section
/-! DEFINITION. The register bus operations (40_register_bank.md). A one-byte access is one step; a wider access is put in
flight and performs its byte lanes one step each. No lifecycle, queue or gate state is consulted (rule R116). -/

namespace Sys2Proof.Machine

/-- RD8 (rule R110): `rdata <- MemRead(addr, 1)`. -/
def execRd8 (addr : Addr) (s : State) : Host.Outcome State Fault Refusal :=
  accept 0x10#8 s fun s => s.answer s.active (.rdata (memRead addr 1 s))

/-- RD16 (rule R111): `rdata <- MemRead(addr, 2)`, two byte steps. -/
def execRd16 (addr : Addr) (s : State) : Host.Outcome State Fault Refusal :=
  accept 0x11#8 s fun s => launch (.busRead addr 2 []) s

/-- RD32 (rule R112): `rdata <- MemRead(addr, 4)`, four byte steps. -/
def execRd32 (addr : Addr) (s : State) : Host.Outcome State Fault Refusal :=
  accept 0x12#8 s fun s => launch (.busRead addr 4 []) s

/-- WR8 (rule R113): `MemWrite(addr, 1, wdata)`. -/
def execWr8 (addr : Addr) (wdata : Word) (s : State) : Host.Outcome State Fault Refusal :=
  accept 0x18#8 s fun s => (memWrite addr 1 wdata s).answer s.active .ack

/-- WR16 (rule R114): `MemWrite(addr, 2, wdata)`, two byte steps. -/
def execWr16 (addr : Addr) (wdata : Word) (s : State) : Host.Outcome State Fault Refusal :=
  accept 0x19#8 s fun s => launch (.busWrite addr 2 wdata []) s

/-- WR32 (rule R115): `MemWrite(addr, 4, wdata)`, four byte steps. -/
def execWr32 (addr : Addr) (wdata : Word) (s : State) : Host.Outcome State Fault Refusal :=
  accept 0x1A#8 s fun s => launch (.busWrite addr 4 wdata []) s

end Sys2Proof.Machine
end

