-- ==== Sys2Proof/Machine/QueuePort.lean ====
section
/-! DEFINITION. The queue-port operations as requests (41_queue.md): one atomic step each (rule R70). A caller may issue
them only when `QUEUE_PORT_EXTERNAL` is true; the block's own sequencers use the same operations in
Machine/Sequencer.lean. -/

namespace Sys2Proof.Machine

/-- One queue step as a request of the active agent: QUEUE_INVALID where rule R130 says so, else `act`. -/
def queueRequest (op : Byte) (act : State → State) (s : State) : State :=
  if s.queueDenied then s.raiseFault s.active op .queueInvalid else act s

/-- QENQ (rule R131). -/
def execQenq (sel : QueueSel) (data : Byte) (s : State) : Host.Outcome State Fault Refusal :=
  accept (queueOpcode sel 0#8) s (queueRequest (queueOpcode sel 0#8) fun s =>
    (enqState sel data s).answer s.active (.qres (enqAnswer sel s)))

/-- What QDEQ hands over: OK with the byte, or EMPTY or FAIL without one (rules R99, R132). -/
def deqResponse (sel : QueueSel) (s : State) : Response :=
  match deqAnswer sel s with
  | .ok => .qbyte (deqByte sel s)
  | .full => .qres .full
  | .empty => .qres .empty
  | .fail => .qres .fail

/-- QDEQ (rule R132). -/
def execQdeq (sel : QueueSel) (s : State) : Host.Outcome State Fault Refusal :=
  accept (queueOpcode sel 1#8) s (queueRequest (queueOpcode sel 1#8) fun s =>
    (deqState sel s).answer s.active (deqResponse sel s))

/-- QFULL (rule R133). -/
def execQfull (sel : QueueSel) (s : State) : Host.Outcome State Fault Refusal :=
  accept (queueOpcode sel 2#8) s (queueRequest (queueOpcode sel 2#8) fun s =>
    s.answer s.active (.flag (queueFull sel s)))

/-- QEMPTY (rule R134). -/
def execQempty (sel : QueueSel) (s : State) : Host.Outcome State Fault Refusal :=
  accept (queueOpcode sel 3#8) s (queueRequest (queueOpcode sel 3#8) fun s =>
    s.answer s.active (.flag (queueEmpty sel s)))

/-- QLEN (rule R135). -/
def execQlen (sel : QueueSel) (s : State) : Host.Outcome State Fault Refusal :=
  accept (queueOpcode sel 4#8) s (queueRequest (queueOpcode sel 4#8) fun s =>
    s.answer s.active (.count (countResult (queueLen sel s))))

end Sys2Proof.Machine
end

