-- ==== Sys2Proof/Machine/Driver.lean ====
section
/-! DEFINITION. The driver operations (42_driver.md). START, STOP, WRITEB, READB and READNB are put in flight and move by
the micro-steps of Machine/Sequencer.lean; the queries are one step each. -/

namespace Sys2Proof.Machine

/-- START (rule R151). -/
def execStart (s : State) : Host.Outcome State Fault Refusal :=
  accept 0x30#8 s fun s => launch (.start .s1) s

/-- STOP (rule R152). -/
def execStop (s : State) : Host.Outcome State Fault Refusal :=
  accept 0x31#8 s fun s => launch (.stop .t1) s

/-- Issue a looping driver operation of the active caller: the loop's head is tested first, so that a call with nothing
to do returns at once "without touching the queue"; then it takes the micro-steps granted to this turn. -/
def enterLoop (loop : Nat → State → State) (s : State) : State :=
  match s.active with
  | .caller n => runTurn (loop n s)
  | .isr => s
  | .line => s

/-- WRITEB (rule R153). `len` is the length of `bytes` in every well-formed request. -/
def execWriteb (_len : Word) (bytes : List Byte) (s : State) : Host.Outcome State Fault Refusal :=
  accept 0x32#8 s (enterLoop fun n s => loopWriteb n bytes 0 s)

/-- READB (rule R154). -/
def execReadb (count : Word) (s : State) : Host.Outcome State Fault Refusal :=
  accept 0x33#8 s (enterLoop fun n s => loopReadb n count.toNat [] s)

/-- READNB (rule R155). -/
def execReadnb (count : Word) (s : State) : Host.Outcome State Fault Refusal :=
  accept 0x34#8 s (enterLoop fun n s => loopReadnb n count.toNat [] s)

/-- RXLEN (rule R156): `count <- RXQ.QLEN()`. -/
def execRxlen (s : State) : Host.Outcome State Fault Refusal :=
  accept 0x35#8 s (queueRequest 0x35#8 fun s => s.answer s.active (.count (countResult (queueLen .rx s))))

/-- TXLEN (rule R157): `count <- TXQ.QLEN()`. -/
def execTxlen (s : State) : Host.Outcome State Fault Refusal :=
  accept 0x36#8 s (queueRequest 0x36#8 fun s => s.answer s.active (.count (countResult (queueLen .tx s))))

/-- TOTALRX (rule R158). -/
def execTotalrx (s : State) : Host.Outcome State Fault Refusal :=
  accept 0x37#8 s fun s => s.answer s.active (.total s.bytesReceived)

/-- RXERR (rule R159). -/
def execRxerr (s : State) : Host.Outcome State Fault Refusal :=
  accept 0x38#8 s fun s => s.answer s.active (.flag s.receiveError)

/-- TXERR (rule R160). -/
def execTxerr (s : State) : Host.Outcome State Fault Refusal :=
  accept 0x39#8 s fun s => s.answer s.active (.flag s.transmitError)

end Sys2Proof.Machine
end

