-- ==== Sys2Proof/Machine/LineSide.lean ====
section
/-! DEFINITION. The line-side port (44_line_side.md): each operation is one atomic step on the store, bypasses the software
write mask, and is accepted in every lifecycle state (rule R204). -/

namespace Sys2Proof.Machine

/-- LFLAGS (rule R200). -/
def execLflags (m v : BitVec 3) (s : State) : Host.Outcome State Fault Refusal :=
  accept 0x50#8 s fun s =>
    { s with store := s.store.write 0 (driveFlags (s.store.read 0) m v) }.answer s.active .ack

/-- LRXDATA (rule R201). -/
def execLrxdata (b : Byte) (s : State) : Host.Outcome State Fault Refusal :=
  accept 0x51#8 s fun s => { s with store := s.store.write 2 b }.answer s.active .ack

/-- LPEEK (rule R202). -/
def execLpeek (k : BitVec 2) (s : State) : Host.Outcome State Fault Refusal :=
  accept 0x52#8 s fun s => s.answer s.active (.lbyte (lineRead k s))

/-- LPOKE (rule R203). -/
def execLpoke (k : BitVec 2) (b : Byte) (s : State) : Host.Outcome State Fault Refusal :=
  accept 0x53#8 s fun s => (lineWrite k b s).answer s.active .ack

end Sys2Proof.Machine
end

