-- ==== Sys2Proof/Machine/Service.lean ====
section
/-! DEFINITION. SERVICE as a request of the ISR (43_service.md): its entry V0; the phases V1 to V9 are in
Machine/Sequencer.lean. Entry saves nothing and changes no mask (rule R233). -/

namespace Sys2Proof.Machine

/-- The routine is entered: the ISR is in progress and takes the micro-steps granted to this turn (rule R180, V0). -/
def enterService (s : State) : State := runTurn (s.setIsr (.snapshot []))

/-- V0 with the gate closed (rule R181): ignored, run, or the fault GATED_SERVICE. -/
def gatedService (s : State) : State :=
  match s.cfg.gatedService with
  | .ignore => s.answer .isr .ack
  | .run => enterService s
  | .fault => s.raiseFault .isr 0x40#8 .gatedService

/-- SERVICE (rules R180, R181, R188). -/
def execService (s : State) : Host.Outcome State Fault Refusal :=
  accept 0x40#8 s fun s => if s.gie then enterService s else gatedService s

end Sys2Proof.Machine
end

