-- ==== Sys2Proof/Machine/Dispatch.lean ====
section
/-! DEFINITION. The meaning of every operation: one arm per row of spec/opcode_table.json. -/

namespace Sys2Proof.Machine

/-- The active agent issues the operation `i`. -/
def exec (i : Instr) (s : State) : Host.Outcome State Fault Refusal :=
  match i with
  | .rd8 addr => Sys2Proof.Machine.execRd8 addr s
  | .rd16 addr => Sys2Proof.Machine.execRd16 addr s
  | .rd32 addr => Sys2Proof.Machine.execRd32 addr s
  | .wr8 addr wdata => Sys2Proof.Machine.execWr8 addr wdata s
  | .wr16 addr wdata => Sys2Proof.Machine.execWr16 addr wdata s
  | .wr32 addr wdata => Sys2Proof.Machine.execWr32 addr wdata s
  | .qenq sel data => Sys2Proof.Machine.execQenq sel data s
  | .qdeq sel => Sys2Proof.Machine.execQdeq sel s
  | .qfull sel => Sys2Proof.Machine.execQfull sel s
  | .qempty sel => Sys2Proof.Machine.execQempty sel s
  | .qlen sel => Sys2Proof.Machine.execQlen sel s
  | .start => Sys2Proof.Machine.execStart s
  | .stop => Sys2Proof.Machine.execStop s
  | .writeb len bytes => Sys2Proof.Machine.execWriteb len bytes s
  | .readb count => Sys2Proof.Machine.execReadb count s
  | .readnb count => Sys2Proof.Machine.execReadnb count s
  | .rxlen => Sys2Proof.Machine.execRxlen s
  | .txlen => Sys2Proof.Machine.execTxlen s
  | .totalrx => Sys2Proof.Machine.execTotalrx s
  | .rxerr => Sys2Proof.Machine.execRxerr s
  | .txerr => Sys2Proof.Machine.execTxerr s
  | .service => Sys2Proof.Machine.execService s
  | .lflags m v => Sys2Proof.Machine.execLflags m v s
  | .lrxdata b => Sys2Proof.Machine.execLrxdata b s
  | .lpeek k => Sys2Proof.Machine.execLpeek k s
  | .lpoke k b => Sys2Proof.Machine.execLpoke k b s

end Sys2Proof.Machine
end

