-- ==== Sys2Proof/Machine/Fetch.lean ====
section
/-! DEFINITION. Taking the next turn of the schedule. The block fetches no instruction stream (10_state.md rule R21):
"fetching" is the arrival of a request at a port (30_encoding.md rule R80). -/

namespace Sys2Proof.Machine

/-- The turn is taken: the schedule goes on with the rest, the agent and its micro-steps are latched. -/
def latch (a : Agent) (ps : List Nat) (rest : List Turn) (s : State) : State :=
  { s with schedule := rest, active := a, picks := ps }

/-- The opcode byte of a request the decoder refuses, where there is one. -/
def errorOpcode : DecodeError → Option Byte
  | .noOpcode => none
  | .illegalOpcode op => some op
  | .truncated op => some op
  | .operandRange op => some op
  | .trailingBytes op => some op

/-- The decoder's refusal makes the request illegal: the opcode byte is illegal (rule R92), or, decided first like it
(rule R228), its class is not the agent's. -/
def errorIsIllegal (c : Config) (a : Agent) (e : DecodeError) : Bool :=
  match e with
  | .noOpcode => false
  | .illegalOpcode _ => true
  | .truncated op => !mayIssue c a op
  | .operandRange op => !mayIssue c a op
  | .trailingBytes op => !mayIssue c a op

/-- A request the decoder refuses: ILLEGAL_OP where rule R92 says so (rule R93); otherwise its bytes are the image of no
request and the model stops (log entry 5). -/
def refuseRequest (e : DecodeError) (s : State) : Host.Outcome State Fault Refusal :=
  present s fun s =>
    if errorIsIllegal s.cfg s.active e then .next (rejectIllegal ((errorOpcode e).getD 0#8) s)
    else .fault (.malformedRequest e)

/-- A request arrives at the active agent's port. -/
def fetchRequest (bytes : List Byte) (s : State) : Fetched :=
  match decodeRequest bytes with
  | .ok i => .execute i s
  | .error e => .done (refuseRequest e s)

/-- The next turn: with no turn left nothing moves; an agent advances its operation in flight; or a request arrives. -/
def fetch (s : State) : Fetched :=
  match s.schedule with
  | [] => .done (.next s)
  | .advance a ps :: rest => .done (.next (runTurn (latch a ps rest s)))
  | .issue a bytes ps :: rest => fetchRequest bytes (latch a ps rest s)

/-- The agent a class of opcode bytes is issued by: the ISR for SERVICE, the line side for the FL format, else A1 (rule
R82). -/
def issuerOf (op : Byte) : Agent :=
  match opClass op with
  | 4 => .isr
  | 5 => .line
  | _ => .caller 1

/-- The micro-steps that any request with operand words of zeros needs at most: SERVICE takes 10. -/
def tablePicks : List Nat := List.replicate 12 0

/-- The turn that issues a table word's request. -/
def tableTurn (nbits w : Nat) : Turn :=
  .issue (issuerOf (BitVec.ofNat 8 w)) (tableRequest nbits w) tablePicks

end Sys2Proof.Machine
end

