-- ==== Sys2Proof/Machine/Step.lean ====
section
/-! DEFINITION. One step of the machine: one turn of the schedule. -/

namespace Sys2Proof.Machine

/-- Take the next turn of the schedule (log entries 1 and 10). -/
def step (s : State) : Host.Outcome State Fault Refusal :=
  match fetch s with
  | .execute i t => exec i t
  | .done o => o

/-- `s` with the request of a table word as its next turn (log entry 10). -/
def State.withFetchWord (s : State) (nbits w : Nat) : State :=
  { s with schedule := tableTurn nbits w :: s.schedule }

end Sys2Proof.Machine
end

