-- ==== Sys2Proof/Machine/Listing.lean ====
section
/-! DEFINITION. The notation of 30_encoding.md section 6: the pseudo-operations and their expansions (rule R97), listings
as schedules (rule R98), and the mnemonic and encoded forms of a request (rule R96). None of it is a request: what a
listing means is what its requests mean. -/

namespace Sys2Proof.Machine

/-- The pseudo-operations (rule R97). -/
inductive Pseudo where
  | lrecv (b : Byte)
  | lrxclr
  | ltxrdy
  | ltxbusy
  | lrxerr
  | lerrclr
  | lidle
  | rdstat
  | rddata
  | wrdata (d : Word)
  | setctl (c : Word)
  | clrctl (c : Word)
deriving DecidableEq, Repr

/-- The requests a pseudo-operation stands for, in order, not atomically (rule R97). `a` is the issuing caller; `r` is the
result of the `RD16 STATUS` that SETCTL and CLRCTL issue first. -/
def Pseudo.expand (c : Config) (a : Agent) (r : Word) : Pseudo → List (Agent × Instr)
  | .lrecv b => [(.line, .lrxdata b), (.line, .lflags 0b001#3 0b001#3)]
  | .lrxclr => [(.line, .lflags 0b001#3 0b000#3)]
  | .ltxrdy => [(.line, .lflags 0b010#3 0b010#3)]
  | .ltxbusy => [(.line, .lflags 0b010#3 0b000#3)]
  | .lrxerr => [(.line, .lflags 0b100#3 0b100#3)]
  | .lerrclr => [(.line, .lflags 0b100#3 0b000#3)]
  | .lidle => [(.line, .lflags 0b111#3 0b000#3)]
  | .rdstat => [(a, .rd16 c.statusBase)]
  | .rddata => [(a, .rd8 (dataBase c))]
  | .wrdata d => [(a, .wr16 (dataBase c) d)]
  | .setctl v => [(a, .rd16 c.statusBase), (a, .wr16 c.statusBase (r ||| v))]
  | .clrctl v => [(a, .rd16 c.statusBase), (a, .wr16 c.statusBase (r &&& ~~~v))]

/-- The micro-steps an operation needs at most to run to completion with no other agent moving (queues of capacity
`qcap`). -/
def microSteps (qcap : Nat) : Instr → Nat
  | .rd8 _ => 0
  | .rd16 _ => 2
  | .rd32 _ => 4
  | .wr8 _ _ => 0
  | .wr16 _ _ => 2
  | .wr32 _ _ => 4
  | .qenq _ _ => 0
  | .qdeq _ => 0
  | .qfull _ => 0
  | .qempty _ => 0
  | .qlen _ => 0
  | .start => 7
  | .stop => 6
  | .writeb _ bytes => bytes.length
  | .readb count => min count.toNat qcap
  | .readnb count => min count.toNat (qcap + 1)
  | .rxlen => 0
  | .txlen => 0
  | .totalrx => 0
  | .rxerr => 0
  | .txerr => 0
  | .service => 10
  | .lflags _ _ => 0
  | .lrxdata _ => 0
  | .lpeek _ => 0
  | .lpoke _ _ => 0

/-- A listing as a schedule: each line's request runs to completion before the next line starts (rule R98). -/
def listing (c : Config) (lines : List (Agent × Instr)) : List Turn :=
  lines.map fun l => .issue l.1 (encode l.2) (List.replicate (microSteps c.qcap l.2) 0)

/-- `REPEAT n`: the lines written out n times (rule R98). -/
def repeatLines (n : Nat) (lines : List (Agent × Instr)) : List (Agent × Instr) := (List.replicate n lines).flatten

/-- A hexadecimal digit. -/
def hexDigit (n : Nat) : Char := ['0', '1', '2', '3', '4', '5', '6', '7', '8', '9', 'A', 'B', 'C', 'D', 'E', 'F'].getD n '0'

/-- `digits` hexadecimal digits of `n`, most significant first. -/
def hexChars : Nat → Nat → List Char
  | 0, _ => []
  | d + 1, n => hexChars d (n / 16) ++ [hexDigit (n % 16)]

/-- A number as the listings write it: `0x` and `digits` digits. -/
def hexText (digits n : Nat) : String := "0x" ++ String.ofList (hexChars digits n)

/-- A byte sequence as the listings write it. -/
def bytesText (bs : List Byte) : String :=
  "[" ++ String.intercalate "," (bs.map fun b => hexText 2 b.toNat) ++ "]"

/-- The suffix that names the queue of an FQ mnemonic. -/
def selText : QueueSel → String
  | .rx => ".RX"
  | .tx => ".TX"

/-- A request in mnemonic syntax (rule R96). -/
def asmText : Instr → String
  | .rd8 a => "RD8 " ++ hexText 8 a.toNat
  | .rd16 a => "RD16 " ++ hexText 8 a.toNat
  | .rd32 a => "RD32 " ++ hexText 8 a.toNat
  | .wr8 a d => "WR8 " ++ hexText 8 a.toNat ++ ", " ++ hexText 8 d.toNat
  | .wr16 a d => "WR16 " ++ hexText 8 a.toNat ++ ", " ++ hexText 8 d.toNat
  | .wr32 a d => "WR32 " ++ hexText 8 a.toNat ++ ", " ++ hexText 8 d.toNat
  | .qenq sel b => "QENQ" ++ selText sel ++ " " ++ hexText 2 b.toNat
  | .qdeq sel => "QDEQ" ++ selText sel
  | .qfull sel => "QFULL" ++ selText sel
  | .qempty sel => "QEMPTY" ++ selText sel
  | .qlen sel => "QLEN" ++ selText sel
  | .start => "START"
  | .stop => "STOP"
  | .writeb _ bs => "WRITEB " ++ bytesText bs
  | .readb n => "READB " ++ hexText 8 n.toNat
  | .readnb n => "READNB " ++ hexText 8 n.toNat
  | .rxlen => "RXLEN"
  | .txlen => "TXLEN"
  | .totalrx => "TOTALRX"
  | .rxerr => "RXERR"
  | .txerr => "TXERR"
  | .service => "SERVICE"
  | .lflags m v => "LFLAGS " ++ hexText 1 m.toNat ++ ", " ++ hexText 1 v.toNat
  | .lrxdata b => "LRXDATA " ++ hexText 2 b.toNat
  | .lpeek k => "LPEEK " ++ hexText 1 k.toNat
  | .lpoke k b => "LPOKE " ++ hexText 1 k.toNat ++ ", " ++ hexText 2 b.toNat

/-- The operand fields of the encoded form (rule R96). -/
def fieldsText : Instr → String
  | .rd8 a => " addr=" ++ hexText 8 a.toNat
  | .rd16 a => " addr=" ++ hexText 8 a.toNat
  | .rd32 a => " addr=" ++ hexText 8 a.toNat
  | .wr8 a d => " addr=" ++ hexText 8 a.toNat ++ " wdata=" ++ hexText 8 d.toNat
  | .wr16 a d => " addr=" ++ hexText 8 a.toNat ++ " wdata=" ++ hexText 8 d.toNat
  | .wr32 a d => " addr=" ++ hexText 8 a.toNat ++ " wdata=" ++ hexText 8 d.toNat
  | .qenq _ b => " data=" ++ hexText 2 b.toNat
  | .qdeq _ => ""
  | .qfull _ => ""
  | .qempty _ => ""
  | .qlen _ => ""
  | .start => ""
  | .stop => ""
  | .writeb len bs => " len=" ++ hexText 8 len.toNat ++ " bytes=" ++ bytesText bs
  | .readb n => " count=" ++ hexText 8 n.toNat
  | .readnb n => " count=" ++ hexText 8 n.toNat
  | .rxlen => ""
  | .txlen => ""
  | .totalrx => ""
  | .rxerr => ""
  | .txerr => ""
  | .service => ""
  | .lflags m v => " m=" ++ hexText 1 m.toNat ++ " v=" ++ hexText 1 v.toNat
  | .lrxdata b => " b=" ++ hexText 2 b.toNat
  | .lpeek k => " k=" ++ hexText 1 k.toNat
  | .lpoke k b => " k=" ++ hexText 1 k.toNat ++ " b=" ++ hexText 2 b.toNat

/-- A request in encoded form: `op=0xNN` followed by its operand fields (rule R96). -/
def encodedForm (i : Instr) : String := "op=" ++ hexText 2 i.opcode.toNat ++ fieldsText i

end Sys2Proof.Machine
end

