-- ==== Sys2Proof/Safety.lean ====
section
/-! DEFINITION. The terms in which claims speak of the block: who may issue what, when a request is admitted, the end of
a run, and the invariants of the state. -/

namespace Sys2Proof.Machine

/-! ### Requests -/

/-- The opcode bytes of rule R89 that are operations; every other byte is reserved or illegal. -/
def legalOpcodes : List Nat :=
  [0x10, 0x11, 0x12, 0x18, 0x19, 0x1A]
    ++ [0x20, 0x21, 0x22, 0x23, 0x24, 0x28, 0x29, 0x2A, 0x2B, 0x2C]
    ++ [0x30, 0x31, 0x32, 0x33, 0x34, 0x35, 0x36, 0x37, 0x38, 0x39]
    ++ [0x40]
    ++ [0x50, 0x51, 0x52, 0x53]

/-- The opcode byte is an operation of rule R89. -/
def legalOpcode (op : Byte) : Bool := legalOpcodes.contains op.toNat

/-- The table of rule R82 by ranges of opcode bytes: FB and FD are the callers', FQ is theirs only with
`QUEUE_PORT_EXTERNAL`, FS is the ISR's, FL the line side's. -/
def permitted (c : Config) (a : Agent) (op : Byte) : Bool :=
  match a with
  | .caller _ =>
    (decide (0x10 ≤ op.toNat) && decide (op.toNat < 0x20))
      || (decide (0x30 ≤ op.toNat) && decide (op.toNat < 0x40))
      || (decide (0x20 ≤ op.toNat) && decide (op.toNat < 0x30) && c.queuePortExternal)
  | .isr => decide (0x40 ≤ op.toNat) && decide (op.toNat < 0x50)
  | .line => decide (0x50 ≤ op.toNat) && decide (op.toNat < 0x60)

/-- The active agent exists and its previous request has returned (rules R80, R237). -/
def State.activeReady (s : State) : Bool := s.agentExists s.active && s.agentIdle s.active

/-- A request of the active agent with opcode byte `op` is admitted: the agent is ready and the class is its own. -/
def State.admits (s : State) (op : Byte) : Bool := s.activeReady && permitted s.cfg s.active op

/-- The agent that moves in the next turn. -/
def State.nextAgent (s : State) : Option Agent :=
  match s.schedule with
  | [] => none
  | .issue a _ _ :: _ => some a
  | .advance a _ :: _ => some a

/-- The next turn may take START's step S2: it issues START, or it advances a START that has not passed S2. -/
def State.nextIsStart (s : State) : Prop :=
  (∃ n bytes ps rest, s.schedule = .issue (.caller n) bytes ps :: rest ∧ decodeRequest bytes = .ok .start)
    ∨ ∃ n ps rest, s.schedule = .advance (.caller n) ps :: rest
        ∧ (s.callerOp n = some (.start .s1) ∨ s.callerOp n = some (.start .s2))

/-! ### Writes -/

/-- What `store[k]` holds after an `n`-byte software write of `v` at `addr`, from what it held (rules R54, R56): the
lane that reaches it is `j = (k - off(addr)) mod 2^32`, if `j < n`. -/
def storedByte (c : Config) (addr : Addr) (n : Nat) (v : Word) (k : Nat) (old : Byte) : Byte :=
  if (BitVec.ofNat 32 k - (addr - c.statusBase)).toNat < n then
    if k = 1 then (old &&& 0x1F#8) ||| (laneOf v (BitVec.ofNat 32 k - (addr - c.statusBase)).toNat &&& 0xE0#8)
    else if k = 2 then laneOf v (BitVec.ofNat 32 k - (addr - c.statusBase)).toNat
    else if k = 3 then 0#8
    else old
  else old

/-! ### Queues -/

/-- A queue whose state is one of the ring's (rules R35, R36): cursors and occupancy in range, `rear = (front + count)
mod QCAP`, and its bytes in canonical form. -/
def Queue.wf (qcap : Nat) (q : Queue) : Bool :=
  decide (q.count ≤ qcap) && decide (q.front < qcap) && decide (q.rear = (q.front + q.count) % qcap)
    && q.buf.wf && Table.below qcap q.buf

/-- One queue-port operation of a sequence: an enqueue of a byte, or a dequeue (rule R137). -/
inductive QueueAct where
  | enq (b : Byte)
  | deq
deriving DecidableEq, Repr

/-- A run of one queue: the state, the bytes the queue has accepted and the bytes it has returned, each oldest first (rule
R137). -/
structure QueueTrace where
  state : State
  accepted : List Byte
  returned : List Byte
deriving DecidableEq, Repr

/-- One queue-port operation of the machine on queue `sel`; a byte counts as accepted or returned when the answer is OK. -/
def QueueTrace.act (sel : QueueSel) (t : QueueTrace) (x : QueueAct) : QueueTrace :=
  match x with
  | .enq b =>
    { state := enqState sel b t.state
      accepted := if enqAnswer sel t.state = .ok then t.accepted ++ [b] else t.accepted
      returned := t.returned }
  | .deq =>
    { state := deqState sel t.state
      accepted := t.accepted
      returned := if deqAnswer sel t.state = .ok then t.returned ++ [deqByte sel t.state] else t.returned }

/-- A sequence of operations on queue `sel` from its construction (rule R136), in a state with the queues allocated. -/
def QueueTrace.run (sel : QueueSel) (s : State) (xs : List QueueAct) : QueueTrace :=
  xs.foldl (QueueTrace.act sel)
    { state := s.setQueue sel (s.queue sel).construct, accepted := [], returned := [] }

/-! ### Invariants -/

/-- The store is in canonical form, holds nothing but `store[0..3]`, and `store[3]` is 0 (rules R22, R34). -/
def State.storeWf (s : State) : Bool := s.store.wf && Table.below 4 s.store && decide (s.store.read 3 = 0#8)

/-- Both queues meet the queue invariant (rule R36). -/
def State.queuesWf (s : State) : Bool := s.rxq.wf s.cfg.qcap && s.txq.wf s.cfg.qcap

/-- The queues are allocated exactly outside STOPPED, and the gate is open exactly in STARTED (rules R37, R42, R43). -/
def State.lifecycleWf (s : State) : Bool :=
  (s.qvalid == decide (s.lifecycle ≠ .stopped)) && (s.gie == decide (s.lifecycle = .started))

/-- The lanes performed so far of an `n`-byte access in flight: rising, in range, not all. -/
def lanesWf (n : Nat) (lanes : Lanes) : Bool :=
  Table.sorted lanes && Table.below n lanes && !lanesDone n lanes

/-- The progress of an in-flight operation is one its rule can reach, in the lifecycle state it can reach it in (rules
R41, R43, R151 to R155). -/
def CallerOp.wf (l : Lifecycle) : CallerOp → Bool
  | .busRead _ n lanes => decide (n = 2 ∨ n = 4) && lanesWf n lanes
  | .busWrite _ n _ lanes => decide (n = 2 ∨ n = 4) && lanesWf n lanes
  | .start .s1 => true
  | .start .s2 => decide (l = .starting)
  | .start (.s3Read lanes) => decide (l = .starting) && lanesWf 2 lanes
  | .start (.s3Write _ lanes) => decide (l = .starting) && lanesWf 2 lanes
  | .start .s4 => decide (l = .starting)
  | .stop .t1 => true
  | .stop (.t2Read lanes) => decide (l = .stopping) && lanesWf 2 lanes
  | .stop (.t2Write _ lanes) => decide (l = .stopping) && lanesWf 2 lanes
  | .stop .t3 => decide (l = .stopping)
  | .writeb bytes i => decide (i < bytes.length)
  | .readb count out => decide (out.length < count)
  | .readnb count out => decide (out.length < count)

/-- The operation is a START past S1 or a STOP past T1: it holds the lifecycle state. -/
def CallerOp.holdsLifecycle : CallerOp → Bool
  | .busRead _ _ _ => false
  | .busWrite _ _ _ _ => false
  | .start next => decide (next ≠ .s1)
  | .stop next => decide (next ≠ .t1)
  | .writeb _ _ => false
  | .readb _ _ => false
  | .readnb _ _ => false

/-- The callers in flight are existing callers, listed by rising number, with sound progress, and at most one of them
holds the lifecycle state (rules R41, R150). -/
def State.callersWf (s : State) : Bool :=
  Table.sorted s.callers
    && s.callers.all (fun c => s.agentExists (.caller c.1) && c.2.wf s.lifecycle)
    && decide ((s.callers.filter fun c => c.2.holdsLifecycle).length ≤ 1)

/-- The phase of a SERVICE in progress is one its rule can reach (rules R41, R180, R183, R184). -/
def ServicePhase.wf : ServicePhase → Bool
  | .snapshot lanes => lanesWf 2 lanes
  | .markError v => receivesError v
  | .readData v => receivesByte v
  | .countByte v _ => receivesByte v
  | .testFull v _ => receivesByte v
  | .dropByte v _ => receivesByte v
  | .enqueue v _ => receivesByte v
  | .enqueueFailed v _ => receivesByte v
  | .dequeue v => transmits v
  | .send v _ lanes => transmits v && lanesWf 2 lanes
  | .dequeueFailed v => transmits v

/-- The ISR's sequencing state is sound. -/
def State.isrWf (s : State) : Bool :=
  match s.isr with
  | some p => p.wf
  | none => true

/-- The invariant of the block: the parameters meet their constraints (rules R7, R9, R11), and store, queues, lifecycle,
callers and ISR are sound; `faults` is a set (rule R44). -/
def State.inv (s : State) : Bool :=
  s.cfg.wf && s.storeWf && s.queuesWf && s.lifecycleWf && s.callersWf && s.isrWf && decide s.faults.Nodup

/-! ### The end of a run -/

/-- Every agent is idle (rule R276). -/
def State.atRest (s : State) : Bool := s.callers.isEmpty && s.isr.isNone

/-- A run has ended successfully: every agent is idle and no fault is recorded (rule R276). -/
def State.successfulEnd (s : State) : Bool := s.atRest && s.faults.isEmpty

end Sys2Proof.Machine
end

