-- ==== Sys2Proof/Certificates/Slice0/Obligations.lean ====
section
/-! DEFINITION. The statements for the provers: what the rules of spec/ say of the block, in terms of
Sys2Proof/Safety.lean and the machine. -/

open Sys2Proof Sys2Proof.Machine

/-! ### Encoding (30_encoding.md) -/

/-- Decoding the byte image of a well-formed request gives the request back, with every operand at every value, whatever
bytes follow. The byte image of the operands is the model's own (log entry 2). -/
def Obligations.DecodeOfEncodeIsTheRequest : Prop :=
  ∀ (i : Instr) (rest : List Byte), i.wellFormed = true → decode (encode i ++ rest) = .ok (i, rest)

/-- The decoder accepts nothing but byte images of well-formed requests: each has one meaning. -/
def Obligations.DecodedBytesAreTheEncoding : Prop :=
  ∀ (bs : List Byte) (i : Instr) (rest : List Byte),
    decode bs = .ok (i, rest) → i.wellFormed = true ∧ bs = encode i ++ rest

/-- Some opcode bytes of rule R89's map, with their operands written out. -/
def Obligations.SampleRequestsDecode : Prop :=
  decodeRequest [0x19#8, 0x00#8, 0x10#8, 0x00#8, 0x00#8, 0xFF#8, 0xFF#8, 0x00#8, 0x00#8]
      = .ok (.wr16 0x1000#32 0xFFFF#32)
    ∧ decodeRequest [0x2B#8] = .ok (.qempty .tx)
    ∧ decodeRequest [0x34#8, 0x05#8, 0x00#8, 0x00#8, 0x00#8] = .ok (.readnb 5#32)
    ∧ decodeRequest [0x40#8] = .ok .service
    ∧ decodeRequest [0x53#8, 0x01#8, 0x1F#8] = .ok (.lpoke 1#2 0x1F#8)

/-- A turn whose bytes decode to a request executes it at the state with the turn taken: the rest of the schedule, the
turn's agent and its granted micro-steps latched, and nothing else changed. -/
def Obligations.StepRunsTheDecodedRequest : Prop :=
  ∀ (s : State) (a : Agent) (bytes : List Byte) (ps : List Nat) (rest : List Turn) (i : Instr),
    s.schedule = .issue a bytes ps :: rest → decodeRequest bytes = .ok i →
      step s = exec i { s with schedule := rest, active := a, picks := ps }

/-- A turn that advances an agent takes its micro-steps one after the other, and a schedule with no turn left moves
nothing (log entries 1 and 10). -/
def Obligations.StepAdvancesTheAgent : Prop :=
  (∀ (s : State) (a : Agent) (p : Nat) (ps : List Nat) (rest : List Turn),
    s.schedule = .advance a (p :: ps) :: rest →
      step s = .next (runAgent a ps (microStep a p { s with schedule := rest, active := a, picks := p :: ps })))
    ∧ (∀ (s : State) (a : Agent) (rest : List Turn), s.schedule = .advance a [] :: rest →
      step s = .next { s with schedule := rest, active := a, picks := [] })
    ∧ ∀ s : State, s.schedule = [] → step s = .next s

/-- An illegal request records ILLEGAL_OP with its agent and opcode byte, changes no other state and returns nothing: an
illegal opcode byte, or a class the agent may not issue (queue-port requests of callers among them while
`QUEUE_PORT_EXTERNAL` is false). The agent, which was idle, stays idle. The decoder is total: every opcode byte is an
operation of rule R89 or illegal, whatever follows it. That a forbidden class is illegal also when the bytes after a legal
opcode byte are no operands of it is the model's deduction from rule R228's precedence (log entry 17). -/
def Obligations.IllegalRequestRecordsFaultOnly : Prop :=
  (∀ (s : State) (a : Agent) (op : Byte) (operands : List Byte) (ps : List Nat) (rest : List Turn),
    s.schedule = .issue a (op :: operands) ps :: rest → s.agentExists a = true → s.agentIdle a = true →
    (legalOpcode op = false ∨ permitted s.cfg a op = false) →
      ∃ t, step s = .next t ∧ t.agentIdle a = true
        ∧ t = { s with schedule := rest, active := a, picks := ps,
                       faults := addFault ⟨a, op, .illegalOp⟩ s.faults })
    ∧ ∀ (op : Byte) (operands : List Byte),
      decode (op :: operands) = .error (.illegalOpcode op) ↔ legalOpcode op = false

/-- The same of an operation issued by an agent its class is not allowed to. -/
def Obligations.ForbiddenClassRecordsFaultOnly : Prop :=
  ∀ (i : Instr) (s : State), s.activeReady = true → permitted s.cfg s.active i.opcode = false →
    exec i s = .next { s with faults := addFault ⟨s.active, i.opcode, .illegalOp⟩ s.faults }

/-- The model's own stops (log entry 5): a request of an agent that does not exist, or whose previous request has not
returned, is none of the spec's. -/
def Obligations.RequestOfAbsentOrBusyAgentStops : Prop :=
  ∀ (i : Instr) (s : State),
    (s.agentExists s.active = false → exec i s = .fault (.noSuchAgent s.active))
      ∧ (s.agentExists s.active = true → s.agentIdle s.active = false → exec i s = .fault (.agentBusy s.active))

/-! ### The register bus (40_register_bank.md) -/

/-- RD8, RD16 and RD32 run to completion hand over `MemRead(addr, n)` and change nothing else, whatever the order of the
byte lanes (the picks), in every lifecycle state and for every address. -/
def Obligations.BusReadsReturnMemoryAndChangeNothing : Prop :=
  ∀ (addr : Addr) (s : State),
    (s.admits 0x10#8 = true →
      exec (.rd8 addr) s = .next { s with responses := (s.active, .rdata (memRead addr 1 s)) :: s.responses })
    ∧ (s.admits 0x11#8 = true → 2 ≤ s.picks.length →
      exec (.rd16 addr) s = .next { s with responses := (s.active, .rdata (memRead addr 2 s)) :: s.responses })
    ∧ (s.admits 0x12#8 = true → 4 ≤ s.picks.length →
      exec (.rd32 addr) s = .next { s with responses := (s.active, .rdata (memRead addr 4 s)) :: s.responses })

/-- What `MemRead` gives at the registers: STATUS, DATA, both as one word, and the straddling and edge reads of
40_register_bank.md. -/
def Obligations.WindowReadsAreTheRegisters : Prop :=
  ∀ s : State,
    memRead s.cfg.statusBase 2 s = s.status.setWidth 32
    ∧ memRead (s.cfg.statusBase + 1#32) 1 s = (s.status.extractLsb' 8 8).setWidth 32
    ∧ memRead (dataBase s.cfg) 2 s = s.data.setWidth 32
    ∧ memRead (dataBase s.cfg) 1 s = (s.data.extractLsb' 0 8).setWidth 32
    ∧ memRead s.cfg.statusBase 4 s = s.data ++ s.status
    ∧ memRead (s.cfg.statusBase + 1#32) 2 s
        = (s.data.extractLsb' 0 8 ++ s.status.extractLsb' 8 8).setWidth 32
    ∧ memRead (s.cfg.statusBase - 1#32) 2 s = (s.status.extractLsb' 0 8).setWidth 32 <<< 8
    ∧ memRead (s.cfg.statusBase - 2#32) 4 s = s.status.setWidth 32 <<< 16
    ∧ memRead (s.cfg.statusBase + 1#32) 4 s
        = (s.data ++ s.status.extractLsb' 8 8).setWidth 32

/-- WR8, WR16 and WR32 run to completion store each lane that reaches the window as rule R54 says, and change nothing
else, whatever the order of the byte lanes. -/
def Obligations.BusWritesStoreTheirLanesOnly : Prop :=
  ∀ (addr : Addr) (v : Word) (s : State),
    (s.admits 0x18#8 = true →
      ∃ m, exec (.wr8 addr v) s = .next { s with store := m, responses := (s.active, .ack) :: s.responses }
        ∧ (∀ k, k < 4 → m.read k = storedByte s.cfg addr 1 v k (s.store.read k))
        ∧ ∀ k, 4 ≤ k → m.read k = s.store.read k)
    ∧ (s.admits 0x19#8 = true → 2 ≤ s.picks.length →
      ∃ m, exec (.wr16 addr v) s = .next { s with store := m, responses := (s.active, .ack) :: s.responses }
        ∧ (∀ k, k < 4 → m.read k = storedByte s.cfg addr 2 v k (s.store.read k))
        ∧ ∀ k, 4 ≤ k → m.read k = s.store.read k)
    ∧ (s.admits 0x1A#8 = true → 4 ≤ s.picks.length →
      ∃ m, exec (.wr32 addr v) s = .next { s with store := m, responses := (s.active, .ack) :: s.responses }
        ∧ (∀ k, k < 4 → m.read k = storedByte s.cfg addr 4 v k (s.store.read k))
        ∧ ∀ k, 4 ≤ k → m.read k = s.store.read k)

/-- `WR16 STATUS, v` gives `STATUS <- (STATUS & 0x1FFF) | (v & 0xE000)` and leaves DATA; `WR16 DATA, v` gives
`DATA <- zext_16(v[7:0])` and leaves STATUS. -/
def Obligations.HalfWordWritesOfTheRegisters : Prop :=
  ∀ (v : Word) (s : State), s.admits 0x19#8 = true → 2 ≤ s.picks.length →
    (∃ t, exec (.wr16 s.cfg.statusBase v) s = .next t
      ∧ t.status = (s.status &&& 0x1FFF#16) ||| (v.extractLsb' 0 16 &&& 0xE000#16) ∧ t.data = s.data)
    ∧ ∃ t, exec (.wr16 (dataBase s.cfg) v) s = .next t
      ∧ t.data = (v.extractLsb' 0 8).setWidth 16 ∧ t.status = s.status

/-- Addresses outside the window read as 0x00 and ignore writes, byte by byte and in accesses of every width, and no
address faults. (Accesses partly outside: BusReadsReturnMemoryAndChangeNothing and BusWritesStoreTheirLanesOnly.) -/
def Obligations.OutsideTheWindowReadsZeroAndIgnoresWrites : Prop :=
  ∀ (addr : Addr) (v : Word) (s : State),
    (4 ≤ busOffset s.cfg addr → byteRead addr s = 0#8 ∧ ∀ b, byteWrite addr b s = s)
    ∧ ((∀ k, k < 1 → 4 ≤ busOffset s.cfg (byteAddr addr k)) →
      (s.admits 0x10#8 = true →
        exec (.rd8 addr) s = .next { s with responses := (s.active, .rdata 0#32) :: s.responses })
      ∧ (s.admits 0x18#8 = true →
        exec (.wr8 addr v) s = .next { s with responses := (s.active, .ack) :: s.responses }))
    ∧ ((∀ k, k < 2 → 4 ≤ busOffset s.cfg (byteAddr addr k)) → 2 ≤ s.picks.length →
      (s.admits 0x11#8 = true →
        exec (.rd16 addr) s = .next { s with responses := (s.active, .rdata 0#32) :: s.responses })
      ∧ (s.admits 0x19#8 = true →
        exec (.wr16 addr v) s = .next { s with responses := (s.active, .ack) :: s.responses }))
    ∧ ((∀ k, k < 4 → 4 ≤ busOffset s.cfg (byteAddr addr k)) → 4 ≤ s.picks.length →
      (s.admits 0x12#8 = true →
        exec (.rd32 addr) s = .next { s with responses := (s.active, .rdata 0#32) :: s.responses })
      ∧ (s.admits 0x1A#8 = true →
        exec (.wr32 addr v) s = .next { s with responses := (s.active, .ack) :: s.responses }))

/-- A multi-byte read is not atomic (rules R60, R61): a half-word read that has taken one byte step stays in flight with
that lane, and completes with the other byte as the store holds it then; either lane may come first. That pick `p`
performs lane `p % 2` is the model's choice (log entry 1). -/
def Obligations.HalfWordReadMayTear : Prop :=
  ∀ (addr : Addr) (s : State) (n p : Nat), s.active = .caller n → s.admits 0x11#8 = true → s.picks = [p] →
    ∃ k, k = p % 2
      ∧ exec (.rd16 addr) s
          = .next (s.setCaller n (.busRead addr 2 [(k, byteRead (byteAddr addr k) s)]))
      ∧ ∀ (t : State) (q : Nat),
          t.callerOp n = some (.busRead addr 2 [(k, byteRead (byteAddr addr k) s)]) →
          microStep (.caller n) q t = t.answer (.caller n)
            (.rdata ((if k = 0 then byteRead (byteAddr addr 1) t ++ byteRead (byteAddr addr 0) s
              else byteRead (byteAddr addr 1) s ++ byteRead (byteAddr addr 0) t).setWidth 32))

/-! ### The queue port (41_queue.md) -/

/-- QENQ of an allowed caller: FULL on a queue at capacity with nothing changed, OK with the byte in the slot `rear` and
`rear`, `count` advanced below it, FAIL with nothing changed when the queues are unallocated under the FAIL policy, and
the fault QUEUE_INVALID under the FAULT policy. -/
def Obligations.EnqueueRequests : Prop :=
  ∀ (sel : QueueSel) (b : Byte) (s : State), s.admits (0x20#8 ||| (if sel = .tx then 8#8 else 0#8)) = true →
    (s.qvalid = true → (s.queue sel).count = s.cfg.qcap →
      exec (.qenq sel b) s = .next { s with responses := (s.active, .qres .full) :: s.responses })
    ∧ (s.qvalid = true → (s.queue sel).count ≠ s.cfg.qcap →
      exec (.qenq sel b) s = .next { s.setQueue sel
          { buf := (s.queue sel).buf.write (s.queue sel).rear b, front := (s.queue sel).front,
            rear := ((s.queue sel).rear + 1) % s.cfg.qcap, count := (s.queue sel).count + 1 }
        with responses := (s.active, .qres .ok) :: s.responses })
    ∧ (s.qvalid = false → s.cfg.stoppedQueuePolicy = .fail →
      exec (.qenq sel b) s = .next { s with responses := (s.active, .qres .fail) :: s.responses })
    ∧ (s.qvalid = false → s.cfg.stoppedQueuePolicy = .fault →
      exec (.qenq sel b) s
        = .next { s with faults := addFault ⟨s.active, (Instr.qenq sel b).opcode, .queueInvalid⟩ s.faults })

/-- QDEQ of an allowed caller: EMPTY on an empty queue with nothing changed, else OK with the byte in the slot `front`
and `front`, `count` advanced; FAIL or QUEUE_INVALID when the queues are unallocated. -/
def Obligations.DequeueRequests : Prop :=
  ∀ (sel : QueueSel) (s : State), s.admits (0x21#8 ||| (if sel = .tx then 8#8 else 0#8)) = true →
    (s.qvalid = true → (s.queue sel).count = 0 →
      exec (.qdeq sel) s = .next { s with responses := (s.active, .qres .empty) :: s.responses })
    ∧ (s.qvalid = true → (s.queue sel).count ≠ 0 →
      exec (.qdeq sel) s = .next { s.setQueue sel
          { buf := (s.queue sel).buf, front := ((s.queue sel).front + 1) % s.cfg.qcap,
            rear := (s.queue sel).rear, count := (s.queue sel).count - 1 }
        with responses := (s.active, .qbyte ((s.queue sel).buf.read (s.queue sel).front)) :: s.responses })
    ∧ (s.qvalid = false → s.cfg.stoppedQueuePolicy = .fail →
      exec (.qdeq sel) s = .next { s with responses := (s.active, .qres .fail) :: s.responses })
    ∧ (s.qvalid = false → s.cfg.stoppedQueuePolicy = .fault →
      exec (.qdeq sel) s
        = .next { s with faults := addFault ⟨s.active, (Instr.qdeq sel).opcode, .queueInvalid⟩ s.faults })

/-- QFULL, QEMPTY and QLEN of an allowed caller answer from the occupancy, as an empty queue when the queues are
unallocated under the FAIL policy, and change nothing; under the FAULT policy they record QUEUE_INVALID. -/
def Obligations.QueueQueries : Prop :=
  ∀ (sel : QueueSel) (s : State),
    (s.admits (Instr.qfull sel).opcode = true →
      (s.qvalid = true → exec (.qfull sel) s
        = .next { s with responses := (s.active, .flag (decide ((s.queue sel).count = s.cfg.qcap))) :: s.responses })
      ∧ (s.qvalid = false → s.cfg.stoppedQueuePolicy = .fail → exec (.qfull sel) s
        = .next { s with responses := (s.active, .flag false) :: s.responses })
      ∧ (s.qvalid = false → s.cfg.stoppedQueuePolicy = .fault → exec (.qfull sel) s
        = .next { s with faults := addFault ⟨s.active, (Instr.qfull sel).opcode, .queueInvalid⟩ s.faults }))
    ∧ (s.admits (Instr.qempty sel).opcode = true →
      (s.qvalid = true → exec (.qempty sel) s
        = .next { s with responses := (s.active, .flag (decide ((s.queue sel).count = 0))) :: s.responses })
      ∧ (s.qvalid = false → s.cfg.stoppedQueuePolicy = .fail → exec (.qempty sel) s
        = .next { s with responses := (s.active, .flag true) :: s.responses })
      ∧ (s.qvalid = false → s.cfg.stoppedQueuePolicy = .fault → exec (.qempty sel) s
        = .next { s with faults := addFault ⟨s.active, (Instr.qempty sel).opcode, .queueInvalid⟩ s.faults }))
    ∧ (s.admits (Instr.qlen sel).opcode = true →
      (s.qvalid = true → exec (.qlen sel) s
        = .next { s with responses := (s.active, .count (BitVec.ofNat 32 (s.queue sel).count)) :: s.responses })
      ∧ (s.qvalid = false → s.cfg.stoppedQueuePolicy = .fail → exec (.qlen sel) s
        = .next { s with responses := (s.active, .count 0#32) :: s.responses })
      ∧ (s.qvalid = false → s.cfg.stoppedQueuePolicy = .fault → exec (.qlen sel) s
        = .next { s with faults := addFault ⟨s.active, (Instr.qlen sel).opcode, .queueInvalid⟩ s.faults }))

/-- The FIFO law: for every sequence of QENQ and QDEQ steps on a queue since its construction, `count` stays in
`[0, QCAP]`, the bytes returned are a prefix of the bytes accepted, in the same order, the rest being the queue's content,
and a step that does not answer OK (FULL, EMPTY) changes nothing. -/
def Obligations.QueueIsFirstInFirstOut : Prop :=
  ∀ (sel : QueueSel) (s : State) (xs : List QueueAct), 1 ≤ s.cfg.qcap → s.qvalid = true →
    ((QueueTrace.run sel s xs).state.queue sel).count ≤ s.cfg.qcap
    ∧ (QueueTrace.run sel s xs).accepted
        = (QueueTrace.run sel s xs).returned
          ++ ((QueueTrace.run sel s xs).state.queue sel).items s.cfg.qcap
    ∧ (∀ b, enqAnswer sel (QueueTrace.run sel s xs).state ≠ .ok →
        (QueueTrace.run sel s xs).state = enqState sel b (QueueTrace.run sel s xs).state)
    ∧ (deqAnswer sel (QueueTrace.run sel s xs).state ≠ .ok →
        (QueueTrace.run sel s xs).state = deqState sel (QueueTrace.run sel s xs).state)

/-! ### The driver (42_driver.md) -/

/-- START in STOPPED, not failing, run to completion: both queues constructed, the scalars cleared, STATUS bits 13 to 15
set and every other store bit kept, the gate open, STARTED, result OK, and nothing else changed. Under `START_MAY_FAIL`,
that a first pick of 0 does not fail is the model's choice (log entry 12). -/
def Obligations.StartOpensASession : Prop :=
  ∀ s : State, s.admits 0x30#8 = true → s.lifecycle = .stopped →
    (s.cfg.startMayFail = false ∨ s.picks.head? = some 0) → 7 ≤ s.picks.length →
    ∃ m, exec .start s = .next { s with
        store := m,
        rxq := { buf := s.rxq.buf, front := 0, rear := 0, count := 0 },
        txq := { buf := s.txq.buf, front := 0, rear := 0, count := 0 },
        qvalid := true, bytesReceived := 0#32, receiveError := false, transmitError := false,
        gie := true, lifecycle := .started,
        responses := (s.active, .dres .ok) :: s.responses }
      ∧ m.read 1 ++ m.read 0 = s.status ||| 0xE000#16
      ∧ ∀ k, 2 ≤ k → m.read k = s.store.read k

/-- START in any state but STOPPED records DOUBLE_START and changes nothing else; in STOPPED, an allocation that fails
(only when `START_MAY_FAIL`) returns INITIALIZATION_FAILURE and changes nothing. -/
def Obligations.StartRefusedOrFailed : Prop :=
  ∀ s : State, s.admits 0x30#8 = true →
    (s.lifecycle ≠ .stopped → 1 ≤ s.picks.length →
      exec .start s = .next { s with faults := addFault ⟨s.active, 0x30#8, .doubleStart⟩ s.faults })
    ∧ (s.lifecycle = .stopped → s.cfg.startMayFail = true → (∃ p ps, s.picks = p :: ps ∧ p ≠ 0) →
      exec .start s = .next { s with responses := (s.active, .dres .initializationFailure) :: s.responses })

/-- STOP in STARTED with no queue in use, run to completion: gate closed, STATUS bits 13 to 15 cleared and every other
store bit kept, queues unallocated, STOPPED, and nothing else changed (the scalars and flags among it). -/
def Obligations.StopEndsTheSession : Prop :=
  ∀ (n : Nat) (s : State), s.active = .caller n → s.admits 0x31#8 = true → s.lifecycle = .started →
    s.inUse n = false → 6 ≤ s.picks.length →
    ∃ m, exec .stop s = .next { s with
        store := m, qvalid := false, gie := false, lifecycle := .stopped,
        responses := (s.active, .ack) :: s.responses }
      ∧ m.read 1 ++ m.read 0 = s.status &&& 0x1FFF#16
      ∧ ∀ k, 2 ≤ k → m.read k = s.store.read k

/-- STOP in any state but STARTED records STOP_NOT_STARTED and changes nothing else; while another caller has a
queue-using operation in flight, or a SERVICE is in progress, its last step records DESTROY_IN_USE: the gate stays
closed, the enables stay cleared, the lifecycle stays STOPPING and the queues stay allocated. -/
def Obligations.StopRefusedOrInUse : Prop :=
  ∀ (n : Nat) (s : State), s.active = .caller n → s.admits 0x31#8 = true →
    (s.lifecycle ≠ .started → 1 ≤ s.picks.length →
      exec .stop s = .next { s with faults := addFault ⟨s.active, 0x31#8, .stopNotStarted⟩ s.faults })
    ∧ (s.lifecycle = .started → s.inUse n = true → 6 ≤ s.picks.length →
      ∃ m, exec .stop s = .next { s with
          store := m, gie := false, lifecycle := .stopping,
          faults := addFault ⟨s.active, 0x31#8, .destroyInUse⟩ s.faults }
        ∧ m.read 1 ++ m.read 0 = s.status &&& 0x1FFF#16
        ∧ ∀ k, 2 ≤ k → m.read k = s.store.read k)

/-- WRITEB with room for every byte, run to completion: the bytes go to the end of TXQ in order, the result is OK, and
nothing else changes. -/
def Obligations.WriteAppendsToTheTransmitQueue : Prop :=
  ∀ (len : Word) (bytes : List Byte) (s : State), (Instr.writeb len bytes).wellFormed = true →
    s.admits 0x32#8 = true → s.qvalid = true → s.txq.wf s.cfg.qcap = true →
    s.txq.count + bytes.length ≤ s.cfg.qcap → bytes.length ≤ s.picks.length →
    ∃ q, exec (.writeb len bytes) s
        = .next { s with txq := q, responses := (s.active, .dres .ok) :: s.responses }
      ∧ q.items s.cfg.qcap = s.txq.items s.cfg.qcap ++ bytes
      ∧ q.count = s.txq.count + bytes.length

/-- WRITEB with more bytes than room waits in flight at the first byte that does not fit; the bytes before it are in
TXQ, nothing else changes, and a further attempt on the full queue changes nothing. -/
def Obligations.WriteWaitsOnAFullQueue : Prop :=
  ∀ (n : Nat) (len : Word) (bytes : List Byte) (s : State), (Instr.writeb len bytes).wellFormed = true →
    s.active = .caller n → s.admits 0x32#8 = true → s.qvalid = true → s.txq.wf s.cfg.qcap = true →
    s.cfg.qcap < s.txq.count + bytes.length → s.cfg.qcap - s.txq.count ≤ s.picks.length →
    ∃ q t, exec (.writeb len bytes) s = .next t
      ∧ t = { s.setCaller n (.writeb bytes (s.cfg.qcap - s.txq.count)) with txq := q }
      ∧ q.items s.cfg.qcap = s.txq.items s.cfg.qcap ++ bytes.take (s.cfg.qcap - s.txq.count)
      ∧ q.count = s.cfg.qcap
      ∧ ∀ p, microStep (.caller n) p t = t

/-- WRITEB of no bytes returns OK at once in every lifecycle state and changes nothing; a WRITEB of some bytes while the
queues are unallocated returns TRANSMIT_FAILURE under the FAIL policy and records QUEUE_INVALID under the FAULT policy,
and changes nothing else. -/
def Obligations.WriteOfNothingAndWriteFailure : Prop :=
  ∀ (len : Word) (b : Byte) (bytes : List Byte) (s : State), s.admits 0x32#8 = true →
    (exec (.writeb 0#32 []) s = .next { s with responses := (s.active, .dres .ok) :: s.responses })
    ∧ (s.qvalid = false → s.cfg.stoppedQueuePolicy = .fail → 1 ≤ s.picks.length →
      exec (.writeb len (b :: bytes)) s
        = .next { s with responses := (s.active, .dres .transmitFailure) :: s.responses })
    ∧ (s.qvalid = false → s.cfg.stoppedQueuePolicy = .fault → 1 ≤ s.picks.length →
      exec (.writeb len (b :: bytes)) s
        = .next { s with faults := addFault ⟨s.active, 0x32#8, .queueInvalid⟩ s.faults })

/-- READB of no more bytes than RXQ holds, run to completion: it returns the oldest `count` bytes in order, they leave
RXQ, and nothing else changes. -/
def Obligations.BlockingReadTakesTheOldestBytes : Prop :=
  ∀ (count : Word) (s : State), s.admits 0x33#8 = true → s.qvalid = true → s.rxq.wf s.cfg.qcap = true →
    count.toNat ≤ s.rxq.count → count.toNat ≤ s.picks.length →
    ∃ q, exec (.readb count) s
        = .next { s with rxq := q,
                         responses := (s.active, .rbytes ((s.rxq.items s.cfg.qcap).take count.toNat)) :: s.responses }
      ∧ q.items s.cfg.qcap = (s.rxq.items s.cfg.qcap).drop count.toNat
      ∧ q.count = s.rxq.count - count.toNat

/-- READB of more bytes than RXQ holds takes them all and waits in flight; a further attempt on the empty queue changes
nothing. -/
def Obligations.BlockingReadWaitsOnAnEmptyQueue : Prop :=
  ∀ (n : Nat) (count : Word) (s : State), s.active = .caller n → s.admits 0x33#8 = true → s.qvalid = true →
    s.rxq.wf s.cfg.qcap = true → s.rxq.count < count.toNat → s.rxq.count ≤ s.picks.length →
    ∃ q t, exec (.readb count) s = .next t
      ∧ t = { s.setCaller n (.readb count.toNat (s.rxq.items s.cfg.qcap)) with rxq := q }
      ∧ q.count = 0
      ∧ ∀ p, microStep (.caller n) p t = t

/-- READNB, run to completion: it returns the oldest `min(count, occupancy)` bytes with their number, they leave RXQ,
and nothing else changes; it never waits. -/
def Obligations.NonBlockingReadTakesWhatIsThere : Prop :=
  ∀ (count : Word) (s : State), s.admits 0x34#8 = true → s.qvalid = true → s.rxq.wf s.cfg.qcap = true →
    min count.toNat (s.rxq.count + 1) ≤ s.picks.length →
    ∃ q, exec (.readnb count) s
        = .next { s with rxq := q,
                         responses := (s.active, .rpartial ((s.rxq.items s.cfg.qcap).take count.toNat)
                           (BitVec.ofNat 32 (min count.toNat s.rxq.count))) :: s.responses }
      ∧ q.items s.cfg.qcap = (s.rxq.items s.cfg.qcap).drop count.toNat
      ∧ q.count = s.rxq.count - min count.toNat s.rxq.count

/-- READB and READNB of no bytes return OK with no bytes at once, in every lifecycle state; of some bytes while the queues
are unallocated they return RECEIVE_FAILURE under the FAIL policy and record QUEUE_INVALID under the FAULT policy;
nothing else changes. -/
def Obligations.ReadOfNothingAndReadFailure : Prop :=
  ∀ (count : Word) (s : State),
    (s.admits 0x33#8 = true →
      (exec (.readb 0#32) s = .next { s with responses := (s.active, .rbytes []) :: s.responses })
      ∧ (s.qvalid = false → s.cfg.stoppedQueuePolicy = .fail → count ≠ 0#32 → 1 ≤ s.picks.length →
        exec (.readb count) s
          = .next { s with responses := (s.active, .dres .receiveFailure) :: s.responses })
      ∧ (s.qvalid = false → s.cfg.stoppedQueuePolicy = .fault → count ≠ 0#32 → 1 ≤ s.picks.length →
        exec (.readb count) s
          = .next { s with faults := addFault ⟨s.active, 0x33#8, .queueInvalid⟩ s.faults }))
    ∧ (s.admits 0x34#8 = true →
      (exec (.readnb 0#32) s = .next { s with responses := (s.active, .rpartial [] 0#32) :: s.responses })
      ∧ (s.qvalid = false → s.cfg.stoppedQueuePolicy = .fail → count ≠ 0#32 → 1 ≤ s.picks.length →
        exec (.readnb count) s
          = .next { s with responses := (s.active, .dres .receiveFailure) :: s.responses })
      ∧ (s.qvalid = false → s.cfg.stoppedQueuePolicy = .fault → count ≠ 0#32 → 1 ≤ s.picks.length →
        exec (.readnb count) s
          = .next { s with faults := addFault ⟨s.active, 0x34#8, .queueInvalid⟩ s.faults }))

/-- RXLEN and TXLEN return the occupancy of their queue, 0 when the queues are unallocated under the FAIL policy, and
change nothing; under the FAULT policy they record QUEUE_INVALID. -/
def Obligations.QueueLengthQueries : Prop :=
  ∀ s : State,
    (s.admits 0x35#8 = true →
      (s.qvalid = true → exec .rxlen s
        = .next { s with responses := (s.active, .count (BitVec.ofNat 32 s.rxq.count)) :: s.responses })
      ∧ (s.qvalid = false → s.cfg.stoppedQueuePolicy = .fail → exec .rxlen s
        = .next { s with responses := (s.active, .count 0#32) :: s.responses })
      ∧ (s.qvalid = false → s.cfg.stoppedQueuePolicy = .fault → exec .rxlen s
        = .next { s with faults := addFault ⟨s.active, 0x35#8, .queueInvalid⟩ s.faults }))
    ∧ (s.admits 0x36#8 = true →
      (s.qvalid = true → exec .txlen s
        = .next { s with responses := (s.active, .count (BitVec.ofNat 32 s.txq.count)) :: s.responses })
      ∧ (s.qvalid = false → s.cfg.stoppedQueuePolicy = .fail → exec .txlen s
        = .next { s with responses := (s.active, .count 0#32) :: s.responses })
      ∧ (s.qvalid = false → s.cfg.stoppedQueuePolicy = .fault → exec .txlen s
        = .next { s with faults := addFault ⟨s.active, 0x36#8, .queueInvalid⟩ s.faults }))

/-- TOTALRX, RXERR and TXERR return the counter and the sticky flags, in every lifecycle state, and change nothing: a
read does not clear a flag. -/
def Obligations.ScalarQueries : Prop :=
  ∀ s : State,
    (s.admits 0x37#8 = true → exec .totalrx s
      = .next { s with responses := (s.active, .total s.bytesReceived) :: s.responses })
    ∧ (s.admits 0x38#8 = true → exec .rxerr s
      = .next { s with responses := (s.active, .flag s.receiveError) :: s.responses })
    ∧ (s.admits 0x39#8 = true → exec .txerr s
      = .next { s with responses := (s.active, .flag s.transmitError) :: s.responses })

/-! ### SERVICE (43_service.md) -/

/-- SERVICE run to completion with no other agent moving, with the gate open (or under `GATED_SERVICE = RUN`) and no
QUEUE_INVALID in reach: the receive check and then the transmit check of the routine, in terms of the STATUS bits, and
nothing else changed. The byte received is DATA's low byte before the transmit check writes it. -/
def Obligations.ServiceMovesOneByteEachWay : Prop :=
  ∀ s : State, s.admits 0x40#8 = true → (s.gie = true ∨ s.cfg.gatedService = .run) →
    (s.qvalid = true ∨ s.cfg.stoppedQueuePolicy = .fail) → 10 ≤ s.picks.length →
    ∃ (m : Memory) (err byte send : Bool),
      err = s.status.getLsbD 2
      ∧ byte = (!s.status.getLsbD 2 && s.status.getLsbD 0 && s.status.getLsbD 14)
      ∧ send = (s.status.getLsbD 1 && s.status.getLsbD 13)
      ∧ exec .service s = .next { s with
          store := m,
          bytesReceived := if err || byte then s.bytesReceived + 1#32 else s.bytesReceived,
          receiveError := s.receiveError || err
            || (byte && (!s.qvalid || decide (s.rxq.count = s.cfg.qcap))),
          rxq := if byte && s.qvalid && decide (s.rxq.count ≠ s.cfg.qcap)
            then s.rxq.push s.cfg.qcap (s.store.read 2) else s.rxq,
          txq := if send && s.qvalid && decide (s.txq.count ≠ 0) then s.txq.pop s.cfg.qcap else s.txq,
          transmitError := s.transmitError || (send && !s.qvalid),
          responses := (s.active, .ack) :: s.responses }
      ∧ (∀ k, k ≠ 2 → k ≠ 3 → m.read k = s.store.read k)
      ∧ m.read 2 = (if send && s.qvalid && decide (s.txq.count ≠ 0) then s.txq.oldest else s.store.read 2)
      ∧ m.read 3 = (if send && s.qvalid && decide (s.txq.count ≠ 0) then 0#8 else s.store.read 3)

/-- SERVICE while the gate is closed: under IGNORE it is not taken and changes nothing; under FAULT it records
GATED_SERVICE and changes nothing else. -/
def Obligations.ServiceWithTheGateClosed : Prop :=
  ∀ s : State, s.admits 0x40#8 = true → s.gie = false →
    (s.cfg.gatedService = .ignore →
      exec .service s = .next { s with responses := (s.active, .ack) :: s.responses })
    ∧ (s.cfg.gatedService = .fault →
      exec .service s = .next { s with faults := addFault ⟨s.active, 0x40#8, .gatedService⟩ s.faults })

/-- Under `STOPPED_QUEUE_POLICY = FAULT` with `GATED_SERVICE = RUN`, a SERVICE that meets the unallocated queues records
QUEUE_INVALID at that step: a received byte is already counted, RxError has already set its flag, and nothing else
changes. -/
def Obligations.ServiceOnUnallocatedQueuesFaults : Prop :=
  ∀ s : State, s.admits 0x40#8 = true → (s.gie = true ∨ s.cfg.gatedService = .run) → s.qvalid = false →
    s.cfg.stoppedQueuePolicy = .fault → 10 ≤ s.picks.length →
    (s.status.getLsbD 2 = false → s.status.getLsbD 0 = true → s.status.getLsbD 14 = true →
      exec .service s = .next { s with
        bytesReceived := s.bytesReceived + 1#32,
        faults := addFault ⟨s.active, 0x40#8, .queueInvalid⟩ s.faults })
    ∧ (s.status.getLsbD 2 = true → s.status.getLsbD 1 = true → s.status.getLsbD 13 = true →
      exec .service s = .next { s with
        bytesReceived := s.bytesReceived + 1#32,
        receiveError := true,
        faults := addFault ⟨s.active, 0x40#8, .queueInvalid⟩ s.faults })
    ∧ (s.status.getLsbD 2 = false → (s.status.getLsbD 0 = false ∨ s.status.getLsbD 14 = false) →
      s.status.getLsbD 1 = true → s.status.getLsbD 13 = true →
      exec .service s = .next { s with faults := addFault ⟨s.active, 0x40#8, .queueInvalid⟩ s.faults })

/-- SERVICE never writes STATUS, neither as a request run for any number of micro-steps nor in a micro-step of any phase
taken later, in any state: none of RxNotEmpty, TxNotFull and RxError is cleared by it. -/
def Obligations.ServiceNeverWritesStatus : Prop :=
  (∀ s t : State, exec .service s = .next t → t.status = s.status)
    ∧ ∀ (p : Nat) (s : State), (microStep .isr p s).status = s.status

/-- SERVICE does not consult STATUS[15]: two runs to completion from states that differ in that bit only differ in that
bit only, and hand over the same. -/
def Obligations.ServiceIgnoresInterruptEnable : Prop :=
  ∀ (s : State) (m : Memory), s.admits 0x40#8 = true → (s.gie = true ∨ s.cfg.gatedService = .run) →
    (s.qvalid = true ∨ s.cfg.stoppedQueuePolicy = .fail) → 10 ≤ s.picks.length →
    (∀ k, k ≠ 1 → m.read k = s.store.read k) → m.read 1 = s.store.read 1 ^^^ 0x80#8 →
    ∃ (t : State) (m' : Memory), exec .service s = .next t
      ∧ exec .service { s with store := m } = .next { t with store := m' }
      ∧ (∀ k, k ≠ 1 → m'.read k = t.store.read k)
      ∧ m'.read 1 = t.store.read 1 ^^^ 0x80#8

/-! ### The line side (44_line_side.md) -/

/-- LFLAGS sets exactly the flags `m` names to the bits of `v`: `store[0] <- (store[0] & ~zext_8(m)) | (zext_8(v) &
zext_8(m))`, and changes nothing else. -/
def Obligations.LineFlagsDriveTheMaskedFlags : Prop :=
  ∀ (m v : BitVec 3) (s : State), s.admits 0x50#8 = true →
    ∃ st, exec (.lflags m v) s = .next { s with store := st, responses := (s.active, .ack) :: s.responses }
      ∧ st.read 0 = (s.store.read 0 &&& ~~~(m.setWidth 8)) ||| (v.setWidth 8 &&& m.setWidth 8)
      ∧ ∀ k, k ≠ 0 → st.read k = s.store.read k

/-- LRXDATA presents a byte in DATA's low byte and changes nothing else, no flag among it (the spec's decision D11). -/
def Obligations.LineReceiveDataSetsTheDataByte : Prop :=
  ∀ (b : Byte) (s : State), s.admits 0x51#8 = true →
    ∃ st, exec (.lrxdata b) s = .next { s with store := st, responses := (s.active, .ack) :: s.responses }
      ∧ st.read 2 = b ∧ ∀ k, k ≠ 2 → st.read k = s.store.read k

/-- LPEEK returns the store byte it names and changes nothing; LPOKE writes it unmasked, but `store[3]` takes 0, and
changes nothing else. -/
def Obligations.LinePeekAndPoke : Prop :=
  ∀ (k : BitVec 2) (b : Byte) (s : State),
    (s.admits 0x52#8 = true → exec (.lpeek k) s
      = .next { s with responses := (s.active, .lbyte (s.store.read k.toNat)) :: s.responses })
    ∧ (s.admits 0x53#8 = true →
      ∃ st, exec (.lpoke k b) s = .next { s with store := st, responses := (s.active, .ack) :: s.responses }
        ∧ st.read k.toNat = (if k = 3#2 then 0#8 else b)
        ∧ ∀ j, j ≠ k.toNat → st.read j = s.store.read j)

/-! ### The interrupt-request output (60_exceptions.md) -/

/-- `irq` is the spec's formula of GIE and the STATUS bits; closing the gate, or clearing InterruptEnable, takes it
away. -/
def Obligations.InterruptRequestFormula : Prop :=
  ∀ s : State, s.irq = true ↔
    s.gie = true ∧ s.status.getLsbD 15 = true
      ∧ (s.status.getLsbD 2 = true
        ∨ (s.status.getLsbD 0 = true ∧ s.status.getLsbD 14 = true)
        ∨ (s.status.getLsbD 1 = true ∧ s.status.getLsbD 13 = true))

/-! ### Reset and whole-machine rules -/

/-- Power-on reset: store all 0x00, `qvalid = 0`, both queues empty, the scalars and the gate 0, STOPPED, every agent idle,
no fault recorded. -/
def Obligations.PowerOnResetState : Prop :=
  (∀ k, State.reset.store.read k = 0#8) ∧ State.reset.status = 0#16 ∧ State.reset.data = 0#16
    ∧ State.reset.qvalid = false ∧ State.reset.rxq.count = 0 ∧ State.reset.txq.count = 0
    ∧ State.reset.rxq.front = 0 ∧ State.reset.rxq.rear = 0 ∧ State.reset.txq.front = 0 ∧ State.reset.txq.rear = 0
    ∧ State.reset.bytesReceived = 0#32 ∧ State.reset.receiveError = false ∧ State.reset.transmitError = false
    ∧ State.reset.gie = false ∧ State.reset.lifecycle = .stopped
    ∧ (∀ a, State.reset.agentIdle a = true) ∧ State.reset.faults = []

/-- The block right after reset meets the invariant. -/
def Obligations.ResetMeetsTheInvariant : Prop := State.reset.inv = true

/-- Every step keeps the invariant: parameters, canonical store with `store[3] = 0`, queue invariant, `qvalid` and GIE as
the lifecycle says, at most one START or STOP holding the lifecycle, sound sequencing state, `faults` a set. -/
def Obligations.EveryStepKeepsTheInvariant : Prop :=
  ∀ s t : State, s.inv = true → step s = .next t → t.inv = true

/-- DATA's upper byte is 0x00 at all times: it is 0 at reset and every step from a state where it is 0 leaves it 0; every
write path that reaches it stores 0x00, whatever it held; a read of it returns 0. -/
def Obligations.DataHighByteIsAlwaysZero : Prop :=
  State.reset.store.read 3 = 0#8
    ∧ (∀ s t : State, s.store.read 3 = 0#8 → step s = .next t → t.store.read 3 = 0#8)
    ∧ (∀ (v : Byte) (s : State), (byteWrite (s.cfg.statusBase + 3#32) v s).store.read 3 = 0#8)
    ∧ (∀ (b : Byte) (s : State), (lineWrite 3#2 b s).store.read 3 = 0#8)
    ∧ ∀ s : State, s.store.read 3 = 0#8 →
      memRead (s.cfg.statusBase + 3#32) 1 s = 0#32 ∧ lineRead 3#2 s = 0#8

/-- Only a turn of the line side changes STATUS bits 0 to 12: the hardware flags are read-only to software and to SERVICE,
START and STOP, and the reserved bits retain their value on any write of theirs. -/
def Obligations.OnlyTheLineSideChangesReadOnlyStatusBits : Prop :=
  ∀ s t : State, step s = .next t → s.nextAgent ≠ some .line → t.status &&& 0x1FFF#16 = s.status &&& 0x1FFF#16

/-- A sticky error flag is cleared by START's micro-step S2 and by nothing else: no other micro-step of any agent clears
one, and no turn does but one that may take S2; the queries that read the flags leave them. -/
def Obligations.StickyFlagsClearedOnlyByStart : Prop :=
  (∀ (a : Agent) (p : Nat) (s : State),
    ((s.receiveError = true ∧ (microStep a p s).receiveError = false)
      ∨ (s.transmitError = true ∧ (microStep a p s).transmitError = false)) →
    ∃ n, a = .caller n ∧ s.callerOp n = some (.start .s2))
    ∧ (∀ s t : State, step s = .next t →
      ((s.receiveError = true ∧ t.receiveError = false) ∨ (s.transmitError = true ∧ t.transmitError = false)) →
      s.nextIsStart)
    ∧ ∀ s t : State, (exec .rxerr s = .next t ∨ exec .txerr s = .next t) →
      t.receiveError = s.receiveError ∧ t.transmitError = s.transmitError

/-- Only a turn of the ISR sets a sticky error flag or increments the received-byte counter; any other turn leaves the
counter or, by START, clears it. -/
def Obligations.OnlyServiceFlagsErrorsAndCounts : Prop :=
  ∀ s t : State, step s = .next t → s.nextAgent ≠ some .isr →
    (s.receiveError = false → t.receiveError = false)
    ∧ (s.transmitError = false → t.transmitError = false)
    ∧ (t.bytesReceived = s.bytesReceived ∨ t.bytesReceived = 0#32)

/-- A fault is never removed once recorded, and a turn records at most one; no fault is recorded at reset. -/
def Obligations.FaultsStayAndATurnAddsAtMostOne : Prop :=
  State.reset.faults = []
    ∧ ∀ s t : State, step s = .next t →
      t.faults = s.faults ∨ ∃ f, f.agent = t.active ∧ f ∉ s.faults ∧ t.faults = s.faults ++ [f]

/-- A turn of one agent touches no other agent's sequencing state: the callers' in-flight operations stay as they are
during SERVICE and line-side turns, and a caller's turn leaves the ISR and every other caller. -/
def Obligations.ATurnLeavesTheOtherAgentsInFlight : Prop :=
  ∀ (s t : State) (a : Agent), step s = .next t → s.nextAgent = some a →
    (a ≠ .isr → t.isr = s.isr) ∧ ∀ n, a ≠ .caller n → t.callerOp n = s.callerOp n

/-- Where a turn ends is free (rule R17): issuing a request for the micro-steps `ps ++ qs` gives the same block as issuing
it for `ps` and advancing the agent by `qs`, so every point between two atomic steps is a point where another agent may
move. -/
def Obligations.ATurnMayBeSplitAnywhere : Prop :=
  ∀ (s t : State) (a : Agent) (bytes : List Byte) (ps qs : List Nat) (rest : List Turn),
    step { s with schedule := .issue a bytes (ps ++ qs) :: rest } = .next t →
    ∃ u, step { s with schedule := .issue a bytes ps :: .advance a qs :: rest } = .next u
      ∧ step u = .next { t with picks := qs }

/-- No step changes the parameters. -/
def Obligations.ParametersNeverChange : Prop :=
  ∀ s t : State, step s = .next t → t.cfg = s.cfg

/-- Every operation of every agent ends in a next state: a ready agent's request is never a stop of the model, whatever
the state of the block. -/
def Obligations.EveryRequestOfAReadyAgentGoesOn : Prop :=
  ∀ (i : Instr) (s : State), s.activeReady = true → ∃ t, exec i s = .next t
end

