-- ==== Sys2Proof/Laws/Memory.lean ====
section
/-! SUPPORT. The laws of tables and of memory: reads after writes hold of every list; the canonical form is kept. -/

namespace Sys2Proof.Machine

variable {α : Type}

@[simp] theorem Table.find_nil (k : Nat) : Table.find k ([] : List (Nat × α)) = none := rfl

@[simp] theorem Table.erase_nil (k : Nat) : Table.erase k ([] : List (Nat × α)) = [] := rfl

theorem Table.find_cons (k j : Nat) (v : α) (t : List (Nat × α)) :
    Table.find k ((j, v) :: t) = if j = k then some v else Table.find k t := rfl

theorem Table.erase_cons (k j : Nat) (v : α) (t : List (Nat × α)) :
    Table.erase k ((j, v) :: t) = if j = k then Table.erase k t else (j, v) :: Table.erase k t := rfl

theorem Table.insert_cons (k j : Nat) (v w : α) (t : List (Nat × α)) :
    Table.insert k v ((j, w) :: t)
      = if k < j then (k, v) :: (j, w) :: t else (j, w) :: Table.insert k v t := rfl

@[simp] theorem Table.find_erase_same (k : Nat) (t : List (Nat × α)) : Table.find k (Table.erase k t) = none := by
  induction t with
  | nil => rfl
  | cons c t ih => obtain ⟨j, v⟩ := c; simp only [Table.erase_cons]; split <;> simp_all [Table.find_cons]

theorem Table.find_erase_other {k j : Nat} (h : j ≠ k) (t : List (Nat × α)) :
    Table.find j (Table.erase k t) = Table.find j t := by
  induction t with
  | nil => rfl
  | cons c t ih =>
    obtain ⟨i, v⟩ := c
    simp only [Table.erase_cons, Table.find_cons]
    split
    · next hi => rw [ih, if_neg (by omega)]
    · rw [Table.find_cons, ih]

theorem Table.find_insert_other {k j : Nat} (h : j ≠ k) (v : α) (t : List (Nat × α)) :
    Table.find j (Table.insert k v t) = Table.find j t := by
  induction t with
  | nil => simp [Table.insert, Table.find_cons, Ne.symm h]
  | cons c t ih =>
    obtain ⟨i, w⟩ := c
    simp only [Table.insert_cons]
    split <;> simp_all [Table.find_cons, Ne.symm h]

theorem Table.find_insert_same (k : Nat) (v : α) (t : List (Nat × α)) (h : Table.find k t = none) :
    Table.find k (Table.insert k v t) = some v := by
  induction t with
  | nil => simp [Table.insert, Table.find_cons]
  | cons c t ih =>
    obtain ⟨i, w⟩ := c
    simp only [Table.find_cons] at h
    split at h
    · cases h
    · rename_i hne
      simp only [Table.insert_cons]
      split <;> simp_all [Table.find_cons]

@[simp] theorem Table.find_put_same (k : Nat) (v : α) (t : List (Nat × α)) : Table.find k (Table.put k v t) = some v :=
  Table.find_insert_same k v _ (Table.find_erase_same k t)

theorem Table.find_put_other {k j : Nat} (h : j ≠ k) (v : α) (t : List (Nat × α)) :
    Table.find j (Table.put k v t) = Table.find j t := by
  rw [Table.put, Table.find_insert_other h, Table.find_erase_other h]

/-- Looking up after a put: one lemma for both cases. -/
theorem Table.find_put (k j : Nat) (v : α) (t : List (Nat × α)) :
    Table.find j (Table.put k v t) = if j = k then some v else Table.find j t := by
  split
  · next h => subst h; simp
  · next h => exact Table.find_put_other h v t

/-- Looking up after an erase: one lemma for both cases. -/
theorem Table.find_erase (k j : Nat) (t : List (Nat × α)) :
    Table.find j (Table.erase k t) = if j = k then none else Table.find j t := by
  split
  · next h => subst h; simp
  · next h => exact Table.find_erase_other h t

theorem Table.erase_absent (k : Nat) (t : List (Nat × α)) (h : Table.find k t = none) : Table.erase k t = t := by
  induction t with
  | nil => rfl
  | cons c t ih =>
    obtain ⟨i, w⟩ := c
    simp only [Table.find_cons] at h
    split at h
    · cases h
    · next hne => simp [Table.erase_cons, hne, ih h]

@[simp] theorem Table.erase_erase (k : Nat) (t : List (Nat × α)) :
    Table.erase k (Table.erase k t) = Table.erase k t :=
  Table.erase_absent k _ (Table.find_erase_same k t)

theorem Table.erase_insert_same (k : Nat) (v : α) (t : List (Nat × α)) (h : Table.find k t = none) :
    Table.erase k (Table.insert k v t) = t := by
  induction t with
  | nil => simp [Table.insert, Table.erase_cons]
  | cons c t ih =>
    obtain ⟨i, w⟩ := c
    simp only [Table.find_cons] at h
    split at h
    · cases h
    · next hne =>
      simp only [Table.insert_cons]
      split
      · simp [Table.erase_cons, hne, Table.erase_absent k t h]
      · simp [Table.erase_cons, hne, ih h]

@[simp] theorem Table.erase_put (k : Nat) (v : α) (t : List (Nat × α)) :
    Table.erase k (Table.put k v t) = Table.erase k t :=
  Table.erase_insert_same k v _ (Table.find_erase_same k t)

@[simp] theorem Table.put_put (k : Nat) (v w : α) (t : List (Nat × α)) :
    Table.put k v (Table.put k w t) = Table.put k v t := by
  rw [Table.put, Table.erase_put, Table.put]

/-- A property of every entry holds after an erase. -/
theorem Table.all_erase (p : Nat × α → Bool) (k : Nat) (t : List (Nat × α)) (h : t.all p = true) :
    (Table.erase k t).all p = true := by
  induction t with
  | nil => rfl
  | cons c t ih =>
    obtain ⟨i, w⟩ := c
    simp only [List.all_cons, Bool.and_eq_true] at h
    simp only [Table.erase_cons]
    split
    · exact ih h.2
    · simp [h.1, ih h.2]

/-- A property of every entry and of the new one holds after an insert. -/
theorem Table.all_insert (p : Nat × α → Bool) (k : Nat) (v : α) (t : List (Nat × α)) (h : t.all p = true)
    (hv : p (k, v) = true) : (Table.insert k v t).all p = true := by
  induction t with
  | nil => simp [Table.insert, hv]
  | cons c t ih =>
    obtain ⟨i, w⟩ := c
    simp only [Table.insert_cons]
    simp only [List.all_cons, Bool.and_eq_true] at h
    split
    · simp [hv, h.1, h.2]
    · simp [h.1, ih h.2]

/-- A property of every entry and of the new one holds after a put. -/
theorem Table.all_put (p : Nat × α → Bool) (k : Nat) (v : α) (t : List (Nat × α)) (h : t.all p = true)
    (hv : p (k, v) = true) : (Table.put k v t).all p = true :=
  Table.all_insert p k v _ (Table.all_erase p k t h) hv

theorem Table.sorted_cons (k : Nat) (v : α) (t : List (Nat × α)) :
    Table.sorted ((k, v) :: t) = (t.all (fun c => decide (k < c.1)) && Table.sorted t) := rfl

theorem Table.sorted_erase (k : Nat) (t : List (Nat × α)) (h : Table.sorted t = true) :
    Table.sorted (Table.erase k t) = true := by
  induction t with
  | nil => rfl
  | cons c t ih =>
    obtain ⟨i, w⟩ := c
    simp only [Table.sorted_cons, Bool.and_eq_true] at h
    simp only [Table.erase_cons]
    split
    · exact ih h.2
    · simp only [Table.sorted_cons, Bool.and_eq_true]
      exact ⟨Table.all_erase _ k t h.1, ih h.2⟩

theorem Table.sorted_insert (k : Nat) (v : α) (t : List (Nat × α)) (h : Table.sorted t = true)
    (hk : Table.find k t = none) : Table.sorted (Table.insert k v t) = true := by
  induction t with
  | nil => rfl
  | cons c t ih =>
    obtain ⟨i, w⟩ := c
    simp only [Table.sorted_cons, Bool.and_eq_true] at h
    simp only [Table.find_cons] at hk
    split at hk
    · cases hk
    · next hne =>
      simp only [Table.insert_cons]
      split
      · next hlt =>
        simp only [Table.sorted_cons, Bool.and_eq_true, List.all_cons, decide_eq_true_eq]
        refine ⟨⟨hlt, ?_⟩, h⟩
        have := h.1
        simp only [List.all_eq_true, decide_eq_true_eq] at this ⊢
        exact fun x hx => lt_trans hlt (this x hx)
      · next hge =>
        simp only [Table.sorted_cons, Bool.and_eq_true]
        exact ⟨Table.all_insert _ k v t h.1 (by simp; omega), ih h.2 hk⟩

theorem Table.sorted_put (k : Nat) (v : α) (t : List (Nat × α)) (h : Table.sorted t = true) :
    Table.sorted (Table.put k v t) = true :=
  Table.sorted_insert k v _ (Table.sorted_erase k t h) (Table.find_erase_same k t)

theorem Table.below_erase (n k : Nat) (t : List (Nat × α)) (h : Table.below n t = true) :
    Table.below n (Table.erase k t) = true :=
  Table.all_erase _ k t h

theorem Table.below_put (n k : Nat) (v : α) (t : List (Nat × α)) (h : Table.below n t = true) (hk : k < n) :
    Table.below n (Table.put k v t) = true :=
  Table.all_put _ k v t h (by simpa using hk)

theorem Table.find_of_below (n k : Nat) (t : List (Nat × α)) (h : Table.below n t = true) (hk : n ≤ k) :
    Table.find k t = none := by
  induction t with
  | nil => rfl
  | cons c t ih =>
    obtain ⟨i, w⟩ := c
    simp only [Table.below, List.all_cons, Bool.and_eq_true, decide_eq_true_eq] at h
    simp only [Table.find_cons]
    split
    · omega
    · exact ih (by simpa [Table.below] using h.2)

/-- Two canonical tables that agree at every index are equal. -/
theorem Table.ext_of_sorted (t u : List (Nat × α)) (ht : Table.sorted t = true) (hu : Table.sorted u = true)
    (h : ∀ k, Table.find k t = Table.find k u) : t = u := by
  have none_of_lt : ∀ (l : List (Nat × α)) (k : Nat), l.all (fun c => decide (k < c.1)) = true →
      Table.find k l = none := by
    intro l k hl
    induction l with
    | nil => rfl
    | cons c l ih =>
      obtain ⟨i, w⟩ := c
      simp only [List.all_cons, Bool.and_eq_true, decide_eq_true_eq] at hl
      simp only [Table.find_cons]
      split
      · omega
      · exact ih hl.2
  induction t generalizing u with
  | nil =>
    cases u with
    | nil => rfl
    | cons d u => obtain ⟨j, w⟩ := d; simpa [Table.find_cons] using h j
  | cons c t ih =>
    obtain ⟨i, v⟩ := c
    cases u with
    | nil => simpa [Table.find_cons] using h i
    | cons d u =>
      obtain ⟨j, w⟩ := d
      simp only [Table.sorted_cons, Bool.and_eq_true] at ht hu
      have lt_of (l : List (Nat × α)) (a b : Nat) (hab : a < b) (hl : l.all (fun c => decide (b < c.1)) = true) :
          Table.find a l = none := by
        apply none_of_lt
        simp only [List.all_eq_true, decide_eq_true_eq] at hl ⊢
        exact fun x hx => lt_trans hab (hl x hx)
      rcases Nat.lt_trichotomy i j with hij | hij | hij
      · have := h i
        rw [Table.find_cons, Table.find_cons, if_pos rfl, if_neg (by omega), lt_of u i j hij hu.1] at this
        cases this
      · subst hij
        have hv := h i
        simp only [Table.find_cons, if_true] at hv
        cases hv
        have : t = u := by
          apply ih u ht.2 hu.2
          intro k
          by_cases hk : i = k
          · subst hk; rw [none_of_lt t i ht.1, none_of_lt u i hu.1]
          · simpa [Table.find_cons, hk] using h k
        rw [this]
      · have := h j
        rw [Table.find_cons, Table.find_cons, if_neg (by omega), if_pos rfl, lt_of t j i hij ht.1] at this
        cases this

/-! ### Memory -/

/-- Read after write, at every index and for every list. -/
theorem Memory.read_write (m : Memory) (k j : Nat) (v : Byte) :
    (m.write k v).read j = if j = k then v else m.read j := by
  unfold Memory.write Memory.read
  split
  · next h => rw [Table.find_erase]; split <;> simp_all
  · rw [Table.find_put]; split <;> simp_all

@[simp] theorem Memory.read_write_same (m : Memory) (k : Nat) (v : Byte) : (m.write k v).read k = v := by
  simp [Memory.read_write]

theorem Memory.read_write_other (m : Memory) {k j : Nat} (h : j ≠ k) (v : Byte) : (m.write k v).read j = m.read j := by
  simp [Memory.read_write, h]

/-- A write keeps the canonical form. -/
theorem Memory.wf_write (m : Memory) (k : Nat) (v : Byte) (h : m.wf = true) : (m.write k v).wf = true := by
  simp only [Memory.wf, Bool.and_eq_true] at h ⊢
  unfold Memory.write
  split
  · exact ⟨Table.sorted_erase k m h.1, Table.all_erase _ k m h.2⟩
  · next hv => exact ⟨Table.sorted_put k v m h.1, Table.all_put _ k v m h.2 (by simpa using hv)⟩

theorem Memory.below_write (n : Nat) (m : Memory) (k : Nat) (v : Byte) (h : Table.below n m = true) (hk : k < n) :
    Table.below n (m.write k v) = true := by
  unfold Memory.write
  split
  · exact Table.below_erase n k m h
  · exact Table.below_put n k v m h hk

/-- The memory of the reset state is canonical. -/
theorem Memory.wf_reset : State.reset.store.wf = true := rfl

theorem Memory.find_ne_zero (m : Memory) (h : m.wf = true) (k : Nat) : Table.find k m ≠ some 0#8 := by
  simp only [Memory.wf, Bool.and_eq_true] at h
  replace h := h.2
  induction m with
  | nil => simp
  | cons c m ih =>
    obtain ⟨i, w⟩ := c
    simp only [List.all_cons, Bool.and_eq_true, bne_iff_ne, ne_eq] at h
    simp only [Table.find_cons]
    split
    · simpa using h.1
    · exact ih h.2

/-- Equal memories are equal data: two canonical memories that read alike are equal. -/
theorem Memory.ext_of_wf (m n : Memory) (hm : m.wf = true) (hn : n.wf = true) (h : ∀ k, m.read k = n.read k) :
    m = n := by
  have hm' := hm; have hn' := hn
  simp only [Memory.wf, Bool.and_eq_true] at hm' hn'
  refine Table.ext_of_sorted m n hm'.1 hn'.1 fun k => ?_
  have hk := h k
  have zm := Memory.find_ne_zero m hm k
  have zn := Memory.find_ne_zero n hn k
  unfold Memory.read at hk
  cases hfm : Table.find k m <;> cases hfn : Table.find k n <;> simp_all

end Sys2Proof.Machine
end

