-- ==== Sys2Proof/Laws/Lanes.lean ====
section
/-! SUPPORT. The byte lanes of a multi-byte access: which lane comes next, when the access is done, what it assembles. -/

namespace Sys2Proof.Machine

theorem mem_lanesLeft (n : Nat) (lanes : Lanes) (k : Nat) :
    k ∈ lanesLeft n lanes ↔ k < n ∧ Table.find k lanes = none := by
  simp [lanesLeft, List.mem_filter]

theorem lanesDone_iff (n : Nat) (lanes : Lanes) :
    lanesDone n lanes = true ↔ ∀ k, k < n → Table.find k lanes ≠ none := by
  simp only [lanesDone, List.isEmpty_iff, List.eq_nil_iff_forall_not_mem, mem_lanesLeft, not_and]

/-- While an access is not done, the pick chooses one of the lanes that are left. -/
theorem nextLane_mem (n : Nat) (lanes : Lanes) (pick : Nat) (h : lanesDone n lanes = false) :
    nextLane n lanes pick ∈ lanesLeft n lanes := by
  have hne : lanesLeft n lanes ≠ [] := by
    intro he
    simp [lanesDone, he] at h
  have hpos : 0 < (lanesLeft n lanes).length := List.length_pos_iff.mpr hne
  have hlt : pick % (lanesLeft n lanes).length < (lanesLeft n lanes).length := Nat.mod_lt _ hpos
  rw [nextLane, List.getD_eq_getElem _ _ hlt]
  exact List.getElem_mem hlt

theorem nextLane_lt (n : Nat) (lanes : Lanes) (pick : Nat) (h : lanesDone n lanes = false) :
    nextLane n lanes pick < n :=
  ((mem_lanesLeft n lanes _).mp (nextLane_mem n lanes pick h)).1

theorem nextLane_new (n : Nat) (lanes : Lanes) (pick : Nat) (h : lanesDone n lanes = false) :
    Table.find (nextLane n lanes pick) lanes = none :=
  ((mem_lanesLeft n lanes _).mp (nextLane_mem n lanes pick h)).2

/-- The first lane of a half-word access. -/
theorem nextLane_two_nil (pick : Nat) : nextLane 2 [] pick = pick % 2 := by
  have : lanesLeft 2 [] = [0, 1] := rfl
  rw [nextLane, this]
  have h : pick % 2 = 0 ∨ pick % 2 = 1 := by omega
  rcases h with h | h <;> simp [h]

/-- The second lane of a half-word access is the one the first left. -/
theorem nextLane_two_one (k : Nat) (b : Byte) (pick : Nat) (hk : k < 2) : nextLane 2 [(k, b)] pick = 1 - k := by
  have h : k = 0 ∨ k = 1 := by omega
  rcases h with rfl | rfl
  · have : lanesLeft 2 [(0, b)] = [1] := rfl
    simp [nextLane, this, Nat.mod_one]
  · have : lanesLeft 2 [(1, b)] = [0] := rfl
    simp [nextLane, this, Nat.mod_one]

theorem laneByte_put (lanes : Lanes) (k j : Nat) (b : Byte) :
    laneByte (Table.put k b lanes) j = if j = k then b else laneByte lanes j := by
  unfold laneByte
  rw [Table.find_put]
  split <;> rfl

/-- `store[k]` after one byte lane of a software write, for every index. -/
theorem read_writeStoreByte (o k : Nat) (v : Byte) (m : Memory) :
    (writeStoreByte o v m).read k
      = if o = k then
          (if k = 1 then maskStatusHigh (m.read 1) v else if k = 2 then v else if k = 3 then 0#8 else m.read k)
        else m.read k := by
  by_cases hk : o = k
  · subst hk
    rcases o with _ | _ | _ | _ | o <;> simp [writeStoreByte]
  · rw [if_neg hk]
    rcases o with _ | _ | _ | _ | o <;> simp only [writeStoreByte]
    · exact Memory.read_write_other m (Ne.symm hk) _
    · exact Memory.read_write_other m (Ne.symm hk) _
    · exact Memory.read_write_other m (Ne.symm hk) _

/-- A software write keeps the store canonical. -/
theorem wf_writeStoreByte (o : Nat) (v : Byte) (m : Memory) (h : m.wf = true) : (writeStoreByte o v m).wf = true := by
  unfold writeStoreByte
  split <;> first | exact h | exact Memory.wf_write _ _ _ h

/-- A software write keeps the store within its four bytes. -/
theorem below_writeStoreByte (o : Nat) (v : Byte) (m : Memory) (h : Table.below 4 m = true) :
    Table.below 4 (writeStoreByte o v m) = true := by
  unfold writeStoreByte
  split <;> first | exact h | exact Memory.below_write 4 _ _ _ h (by decide)

/-- A software write outside the window is ignored (rule R64). -/
theorem writeStoreByte_outside (o : Nat) (v : Byte) (m : Memory) (h : 4 ≤ o) : writeStoreByte o v m = m := by
  match o, h with
  | o + 4, _ => rfl

/-- The offset of the k-th byte of an access at `a`. -/
theorem busOffset_byteAddr (c : Config) (a : Addr) (k : Nat) :
    busOffset c (byteAddr a k) = (a - c.statusBase + BitVec.ofNat 32 k).toNat := by
  unfold busOffset byteAddr
  congr 1
  ring

end Sys2Proof.Machine
end

