-- ==== Sys2Proof/Laws/State.lean ====
section
/-! SUPPORT. Each named update of the state, field by field, so that no later proof unfolds a record update. -/

namespace Sys2Proof.Machine

/-! ### byteWrite -/

@[simp] theorem byteWrite_cfg (a : Addr) (v : Byte) (s : State) : (byteWrite a v s).cfg = s.cfg := rfl

@[simp] theorem byteWrite_store (a : Addr) (v : Byte) (s : State) : (byteWrite a v s).store = writeStoreByte (busOffset s.cfg a) v s.store := rfl

@[simp] theorem byteWrite_rxq (a : Addr) (v : Byte) (s : State) : (byteWrite a v s).rxq = s.rxq := rfl

@[simp] theorem byteWrite_txq (a : Addr) (v : Byte) (s : State) : (byteWrite a v s).txq = s.txq := rfl

@[simp] theorem byteWrite_qvalid (a : Addr) (v : Byte) (s : State) : (byteWrite a v s).qvalid = s.qvalid := rfl

@[simp] theorem byteWrite_bytesReceived (a : Addr) (v : Byte) (s : State) : (byteWrite a v s).bytesReceived = s.bytesReceived := rfl

@[simp] theorem byteWrite_receiveError (a : Addr) (v : Byte) (s : State) : (byteWrite a v s).receiveError = s.receiveError := rfl

@[simp] theorem byteWrite_transmitError (a : Addr) (v : Byte) (s : State) : (byteWrite a v s).transmitError = s.transmitError := rfl

@[simp] theorem byteWrite_gie (a : Addr) (v : Byte) (s : State) : (byteWrite a v s).gie = s.gie := rfl

@[simp] theorem byteWrite_lifecycle (a : Addr) (v : Byte) (s : State) : (byteWrite a v s).lifecycle = s.lifecycle := rfl

@[simp] theorem byteWrite_callers (a : Addr) (v : Byte) (s : State) : (byteWrite a v s).callers = s.callers := rfl

@[simp] theorem byteWrite_isr (a : Addr) (v : Byte) (s : State) : (byteWrite a v s).isr = s.isr := rfl

@[simp] theorem byteWrite_faults (a : Addr) (v : Byte) (s : State) : (byteWrite a v s).faults = s.faults := rfl

@[simp] theorem byteWrite_responses (a : Addr) (v : Byte) (s : State) : (byteWrite a v s).responses = s.responses := rfl

@[simp] theorem byteWrite_schedule (a : Addr) (v : Byte) (s : State) : (byteWrite a v s).schedule = s.schedule := rfl

@[simp] theorem byteWrite_active (a : Addr) (v : Byte) (s : State) : (byteWrite a v s).active = s.active := rfl

@[simp] theorem byteWrite_picks (a : Addr) (v : Byte) (s : State) : (byteWrite a v s).picks = s.picks := rfl

/-! ### lineWrite -/

@[simp] theorem lineWrite_cfg (k : BitVec 2) (v : Byte) (s : State) : (lineWrite k v s).cfg = s.cfg := rfl

@[simp] theorem lineWrite_store (k : BitVec 2) (v : Byte) (s : State) : (lineWrite k v s).store = s.store.write k.toNat (if k = 3#2 then 0#8 else v) := rfl

@[simp] theorem lineWrite_rxq (k : BitVec 2) (v : Byte) (s : State) : (lineWrite k v s).rxq = s.rxq := rfl

@[simp] theorem lineWrite_txq (k : BitVec 2) (v : Byte) (s : State) : (lineWrite k v s).txq = s.txq := rfl

@[simp] theorem lineWrite_qvalid (k : BitVec 2) (v : Byte) (s : State) : (lineWrite k v s).qvalid = s.qvalid := rfl

@[simp] theorem lineWrite_bytesReceived (k : BitVec 2) (v : Byte) (s : State) : (lineWrite k v s).bytesReceived = s.bytesReceived := rfl

@[simp] theorem lineWrite_receiveError (k : BitVec 2) (v : Byte) (s : State) : (lineWrite k v s).receiveError = s.receiveError := rfl

@[simp] theorem lineWrite_transmitError (k : BitVec 2) (v : Byte) (s : State) : (lineWrite k v s).transmitError = s.transmitError := rfl

@[simp] theorem lineWrite_gie (k : BitVec 2) (v : Byte) (s : State) : (lineWrite k v s).gie = s.gie := rfl

@[simp] theorem lineWrite_lifecycle (k : BitVec 2) (v : Byte) (s : State) : (lineWrite k v s).lifecycle = s.lifecycle := rfl

@[simp] theorem lineWrite_callers (k : BitVec 2) (v : Byte) (s : State) : (lineWrite k v s).callers = s.callers := rfl

@[simp] theorem lineWrite_isr (k : BitVec 2) (v : Byte) (s : State) : (lineWrite k v s).isr = s.isr := rfl

@[simp] theorem lineWrite_faults (k : BitVec 2) (v : Byte) (s : State) : (lineWrite k v s).faults = s.faults := rfl

@[simp] theorem lineWrite_responses (k : BitVec 2) (v : Byte) (s : State) : (lineWrite k v s).responses = s.responses := rfl

@[simp] theorem lineWrite_schedule (k : BitVec 2) (v : Byte) (s : State) : (lineWrite k v s).schedule = s.schedule := rfl

@[simp] theorem lineWrite_active (k : BitVec 2) (v : Byte) (s : State) : (lineWrite k v s).active = s.active := rfl

@[simp] theorem lineWrite_picks (k : BitVec 2) (v : Byte) (s : State) : (lineWrite k v s).picks = s.picks := rfl

/-! ### setQueue -/

@[simp] theorem setQueue_cfg (sel : QueueSel) (q : Queue) (s : State) : (s.setQueue sel q).cfg = s.cfg :=
  by cases sel <;> rfl

@[simp] theorem setQueue_store (sel : QueueSel) (q : Queue) (s : State) : (s.setQueue sel q).store = s.store :=
  by cases sel <;> rfl

@[simp] theorem setQueue_qvalid (sel : QueueSel) (q : Queue) (s : State) : (s.setQueue sel q).qvalid = s.qvalid :=
  by cases sel <;> rfl

@[simp] theorem setQueue_bytesReceived (sel : QueueSel) (q : Queue) (s : State) : (s.setQueue sel q).bytesReceived = s.bytesReceived :=
  by cases sel <;> rfl

@[simp] theorem setQueue_receiveError (sel : QueueSel) (q : Queue) (s : State) : (s.setQueue sel q).receiveError = s.receiveError :=
  by cases sel <;> rfl

@[simp] theorem setQueue_transmitError (sel : QueueSel) (q : Queue) (s : State) : (s.setQueue sel q).transmitError = s.transmitError :=
  by cases sel <;> rfl

@[simp] theorem setQueue_gie (sel : QueueSel) (q : Queue) (s : State) : (s.setQueue sel q).gie = s.gie :=
  by cases sel <;> rfl

@[simp] theorem setQueue_lifecycle (sel : QueueSel) (q : Queue) (s : State) : (s.setQueue sel q).lifecycle = s.lifecycle :=
  by cases sel <;> rfl

@[simp] theorem setQueue_callers (sel : QueueSel) (q : Queue) (s : State) : (s.setQueue sel q).callers = s.callers :=
  by cases sel <;> rfl

@[simp] theorem setQueue_isr (sel : QueueSel) (q : Queue) (s : State) : (s.setQueue sel q).isr = s.isr :=
  by cases sel <;> rfl

@[simp] theorem setQueue_faults (sel : QueueSel) (q : Queue) (s : State) : (s.setQueue sel q).faults = s.faults :=
  by cases sel <;> rfl

@[simp] theorem setQueue_responses (sel : QueueSel) (q : Queue) (s : State) : (s.setQueue sel q).responses = s.responses :=
  by cases sel <;> rfl

@[simp] theorem setQueue_schedule (sel : QueueSel) (q : Queue) (s : State) : (s.setQueue sel q).schedule = s.schedule :=
  by cases sel <;> rfl

@[simp] theorem setQueue_active (sel : QueueSel) (q : Queue) (s : State) : (s.setQueue sel q).active = s.active :=
  by cases sel <;> rfl

@[simp] theorem setQueue_picks (sel : QueueSel) (q : Queue) (s : State) : (s.setQueue sel q).picks = s.picks :=
  by cases sel <;> rfl

/-! ### enqState -/

@[simp] theorem enqState_cfg (sel : QueueSel) (b : Byte) (s : State) : (enqState sel b s).cfg = s.cfg :=
  by unfold enqState; cases enqAnswer sel s <;> cases sel <;> rfl

@[simp] theorem enqState_store (sel : QueueSel) (b : Byte) (s : State) : (enqState sel b s).store = s.store :=
  by unfold enqState; cases enqAnswer sel s <;> cases sel <;> rfl

@[simp] theorem enqState_qvalid (sel : QueueSel) (b : Byte) (s : State) : (enqState sel b s).qvalid = s.qvalid :=
  by unfold enqState; cases enqAnswer sel s <;> cases sel <;> rfl

@[simp] theorem enqState_bytesReceived (sel : QueueSel) (b : Byte) (s : State) : (enqState sel b s).bytesReceived = s.bytesReceived :=
  by unfold enqState; cases enqAnswer sel s <;> cases sel <;> rfl

@[simp] theorem enqState_receiveError (sel : QueueSel) (b : Byte) (s : State) : (enqState sel b s).receiveError = s.receiveError :=
  by unfold enqState; cases enqAnswer sel s <;> cases sel <;> rfl

@[simp] theorem enqState_transmitError (sel : QueueSel) (b : Byte) (s : State) : (enqState sel b s).transmitError = s.transmitError :=
  by unfold enqState; cases enqAnswer sel s <;> cases sel <;> rfl

@[simp] theorem enqState_gie (sel : QueueSel) (b : Byte) (s : State) : (enqState sel b s).gie = s.gie :=
  by unfold enqState; cases enqAnswer sel s <;> cases sel <;> rfl

@[simp] theorem enqState_lifecycle (sel : QueueSel) (b : Byte) (s : State) : (enqState sel b s).lifecycle = s.lifecycle :=
  by unfold enqState; cases enqAnswer sel s <;> cases sel <;> rfl

@[simp] theorem enqState_callers (sel : QueueSel) (b : Byte) (s : State) : (enqState sel b s).callers = s.callers :=
  by unfold enqState; cases enqAnswer sel s <;> cases sel <;> rfl

@[simp] theorem enqState_isr (sel : QueueSel) (b : Byte) (s : State) : (enqState sel b s).isr = s.isr :=
  by unfold enqState; cases enqAnswer sel s <;> cases sel <;> rfl

@[simp] theorem enqState_faults (sel : QueueSel) (b : Byte) (s : State) : (enqState sel b s).faults = s.faults :=
  by unfold enqState; cases enqAnswer sel s <;> cases sel <;> rfl

@[simp] theorem enqState_responses (sel : QueueSel) (b : Byte) (s : State) : (enqState sel b s).responses = s.responses :=
  by unfold enqState; cases enqAnswer sel s <;> cases sel <;> rfl

@[simp] theorem enqState_schedule (sel : QueueSel) (b : Byte) (s : State) : (enqState sel b s).schedule = s.schedule :=
  by unfold enqState; cases enqAnswer sel s <;> cases sel <;> rfl

@[simp] theorem enqState_active (sel : QueueSel) (b : Byte) (s : State) : (enqState sel b s).active = s.active :=
  by unfold enqState; cases enqAnswer sel s <;> cases sel <;> rfl

@[simp] theorem enqState_picks (sel : QueueSel) (b : Byte) (s : State) : (enqState sel b s).picks = s.picks :=
  by unfold enqState; cases enqAnswer sel s <;> cases sel <;> rfl

/-! ### deqState -/

@[simp] theorem deqState_cfg (sel : QueueSel) (s : State) : (deqState sel s).cfg = s.cfg :=
  by unfold deqState; cases deqAnswer sel s <;> cases sel <;> rfl

@[simp] theorem deqState_store (sel : QueueSel) (s : State) : (deqState sel s).store = s.store :=
  by unfold deqState; cases deqAnswer sel s <;> cases sel <;> rfl

@[simp] theorem deqState_qvalid (sel : QueueSel) (s : State) : (deqState sel s).qvalid = s.qvalid :=
  by unfold deqState; cases deqAnswer sel s <;> cases sel <;> rfl

@[simp] theorem deqState_bytesReceived (sel : QueueSel) (s : State) : (deqState sel s).bytesReceived = s.bytesReceived :=
  by unfold deqState; cases deqAnswer sel s <;> cases sel <;> rfl

@[simp] theorem deqState_receiveError (sel : QueueSel) (s : State) : (deqState sel s).receiveError = s.receiveError :=
  by unfold deqState; cases deqAnswer sel s <;> cases sel <;> rfl

@[simp] theorem deqState_transmitError (sel : QueueSel) (s : State) : (deqState sel s).transmitError = s.transmitError :=
  by unfold deqState; cases deqAnswer sel s <;> cases sel <;> rfl

@[simp] theorem deqState_gie (sel : QueueSel) (s : State) : (deqState sel s).gie = s.gie :=
  by unfold deqState; cases deqAnswer sel s <;> cases sel <;> rfl

@[simp] theorem deqState_lifecycle (sel : QueueSel) (s : State) : (deqState sel s).lifecycle = s.lifecycle :=
  by unfold deqState; cases deqAnswer sel s <;> cases sel <;> rfl

@[simp] theorem deqState_callers (sel : QueueSel) (s : State) : (deqState sel s).callers = s.callers :=
  by unfold deqState; cases deqAnswer sel s <;> cases sel <;> rfl

@[simp] theorem deqState_isr (sel : QueueSel) (s : State) : (deqState sel s).isr = s.isr :=
  by unfold deqState; cases deqAnswer sel s <;> cases sel <;> rfl

@[simp] theorem deqState_faults (sel : QueueSel) (s : State) : (deqState sel s).faults = s.faults :=
  by unfold deqState; cases deqAnswer sel s <;> cases sel <;> rfl

@[simp] theorem deqState_responses (sel : QueueSel) (s : State) : (deqState sel s).responses = s.responses :=
  by unfold deqState; cases deqAnswer sel s <;> cases sel <;> rfl

@[simp] theorem deqState_schedule (sel : QueueSel) (s : State) : (deqState sel s).schedule = s.schedule :=
  by unfold deqState; cases deqAnswer sel s <;> cases sel <;> rfl

@[simp] theorem deqState_active (sel : QueueSel) (s : State) : (deqState sel s).active = s.active :=
  by unfold deqState; cases deqAnswer sel s <;> cases sel <;> rfl

@[simp] theorem deqState_picks (sel : QueueSel) (s : State) : (deqState sel s).picks = s.picks :=
  by unfold deqState; cases deqAnswer sel s <;> cases sel <;> rfl

/-! ### countReceived -/

@[simp] theorem countReceived_cfg (s : State) : (countReceived s).cfg = s.cfg := rfl

@[simp] theorem countReceived_store (s : State) : (countReceived s).store = s.store := rfl

@[simp] theorem countReceived_rxq (s : State) : (countReceived s).rxq = s.rxq := rfl

@[simp] theorem countReceived_txq (s : State) : (countReceived s).txq = s.txq := rfl

@[simp] theorem countReceived_qvalid (s : State) : (countReceived s).qvalid = s.qvalid := rfl

@[simp] theorem countReceived_bytesReceived (s : State) : (countReceived s).bytesReceived = s.bytesReceived + 1#32 := rfl

@[simp] theorem countReceived_receiveError (s : State) : (countReceived s).receiveError = s.receiveError := rfl

@[simp] theorem countReceived_transmitError (s : State) : (countReceived s).transmitError = s.transmitError := rfl

@[simp] theorem countReceived_gie (s : State) : (countReceived s).gie = s.gie := rfl

@[simp] theorem countReceived_lifecycle (s : State) : (countReceived s).lifecycle = s.lifecycle := rfl

@[simp] theorem countReceived_callers (s : State) : (countReceived s).callers = s.callers := rfl

@[simp] theorem countReceived_isr (s : State) : (countReceived s).isr = s.isr := rfl

@[simp] theorem countReceived_faults (s : State) : (countReceived s).faults = s.faults := rfl

@[simp] theorem countReceived_responses (s : State) : (countReceived s).responses = s.responses := rfl

@[simp] theorem countReceived_schedule (s : State) : (countReceived s).schedule = s.schedule := rfl

@[simp] theorem countReceived_active (s : State) : (countReceived s).active = s.active := rfl

@[simp] theorem countReceived_picks (s : State) : (countReceived s).picks = s.picks := rfl

/-! ### flagReceiveError -/

@[simp] theorem flagReceiveError_cfg (s : State) : (flagReceiveError s).cfg = s.cfg := rfl

@[simp] theorem flagReceiveError_store (s : State) : (flagReceiveError s).store = s.store := rfl

@[simp] theorem flagReceiveError_rxq (s : State) : (flagReceiveError s).rxq = s.rxq := rfl

@[simp] theorem flagReceiveError_txq (s : State) : (flagReceiveError s).txq = s.txq := rfl

@[simp] theorem flagReceiveError_qvalid (s : State) : (flagReceiveError s).qvalid = s.qvalid := rfl

@[simp] theorem flagReceiveError_bytesReceived (s : State) : (flagReceiveError s).bytesReceived = s.bytesReceived := rfl

@[simp] theorem flagReceiveError_receiveError (s : State) : (flagReceiveError s).receiveError = true := rfl

@[simp] theorem flagReceiveError_transmitError (s : State) : (flagReceiveError s).transmitError = s.transmitError := rfl

@[simp] theorem flagReceiveError_gie (s : State) : (flagReceiveError s).gie = s.gie := rfl

@[simp] theorem flagReceiveError_lifecycle (s : State) : (flagReceiveError s).lifecycle = s.lifecycle := rfl

@[simp] theorem flagReceiveError_callers (s : State) : (flagReceiveError s).callers = s.callers := rfl

@[simp] theorem flagReceiveError_isr (s : State) : (flagReceiveError s).isr = s.isr := rfl

@[simp] theorem flagReceiveError_faults (s : State) : (flagReceiveError s).faults = s.faults := rfl

@[simp] theorem flagReceiveError_responses (s : State) : (flagReceiveError s).responses = s.responses := rfl

@[simp] theorem flagReceiveError_schedule (s : State) : (flagReceiveError s).schedule = s.schedule := rfl

@[simp] theorem flagReceiveError_active (s : State) : (flagReceiveError s).active = s.active := rfl

@[simp] theorem flagReceiveError_picks (s : State) : (flagReceiveError s).picks = s.picks := rfl

/-! ### flagTransmitError -/

@[simp] theorem flagTransmitError_cfg (s : State) : (flagTransmitError s).cfg = s.cfg := rfl

@[simp] theorem flagTransmitError_store (s : State) : (flagTransmitError s).store = s.store := rfl

@[simp] theorem flagTransmitError_rxq (s : State) : (flagTransmitError s).rxq = s.rxq := rfl

@[simp] theorem flagTransmitError_txq (s : State) : (flagTransmitError s).txq = s.txq := rfl

@[simp] theorem flagTransmitError_qvalid (s : State) : (flagTransmitError s).qvalid = s.qvalid := rfl

@[simp] theorem flagTransmitError_bytesReceived (s : State) : (flagTransmitError s).bytesReceived = s.bytesReceived := rfl

@[simp] theorem flagTransmitError_receiveError (s : State) : (flagTransmitError s).receiveError = s.receiveError := rfl

@[simp] theorem flagTransmitError_transmitError (s : State) : (flagTransmitError s).transmitError = true := rfl

@[simp] theorem flagTransmitError_gie (s : State) : (flagTransmitError s).gie = s.gie := rfl

@[simp] theorem flagTransmitError_lifecycle (s : State) : (flagTransmitError s).lifecycle = s.lifecycle := rfl

@[simp] theorem flagTransmitError_callers (s : State) : (flagTransmitError s).callers = s.callers := rfl

@[simp] theorem flagTransmitError_isr (s : State) : (flagTransmitError s).isr = s.isr := rfl

@[simp] theorem flagTransmitError_faults (s : State) : (flagTransmitError s).faults = s.faults := rfl

@[simp] theorem flagTransmitError_responses (s : State) : (flagTransmitError s).responses = s.responses := rfl

@[simp] theorem flagTransmitError_schedule (s : State) : (flagTransmitError s).schedule = s.schedule := rfl

@[simp] theorem flagTransmitError_active (s : State) : (flagTransmitError s).active = s.active := rfl

@[simp] theorem flagTransmitError_picks (s : State) : (flagTransmitError s).picks = s.picks := rfl

/-! ### allocateQueues -/

@[simp] theorem allocateQueues_cfg (s : State) : (allocateQueues s).cfg = s.cfg := rfl

@[simp] theorem allocateQueues_store (s : State) : (allocateQueues s).store = s.store := rfl

@[simp] theorem allocateQueues_rxq (s : State) : (allocateQueues s).rxq = s.rxq.construct := rfl

@[simp] theorem allocateQueues_txq (s : State) : (allocateQueues s).txq = s.txq.construct := rfl

@[simp] theorem allocateQueues_qvalid (s : State) : (allocateQueues s).qvalid = true := rfl

@[simp] theorem allocateQueues_bytesReceived (s : State) : (allocateQueues s).bytesReceived = s.bytesReceived := rfl

@[simp] theorem allocateQueues_receiveError (s : State) : (allocateQueues s).receiveError = s.receiveError := rfl

@[simp] theorem allocateQueues_transmitError (s : State) : (allocateQueues s).transmitError = s.transmitError := rfl

@[simp] theorem allocateQueues_gie (s : State) : (allocateQueues s).gie = s.gie := rfl

@[simp] theorem allocateQueues_lifecycle (s : State) : (allocateQueues s).lifecycle = .starting := rfl

@[simp] theorem allocateQueues_callers (s : State) : (allocateQueues s).callers = s.callers := rfl

@[simp] theorem allocateQueues_isr (s : State) : (allocateQueues s).isr = s.isr := rfl

@[simp] theorem allocateQueues_faults (s : State) : (allocateQueues s).faults = s.faults := rfl

@[simp] theorem allocateQueues_responses (s : State) : (allocateQueues s).responses = s.responses := rfl

@[simp] theorem allocateQueues_schedule (s : State) : (allocateQueues s).schedule = s.schedule := rfl

@[simp] theorem allocateQueues_active (s : State) : (allocateQueues s).active = s.active := rfl

@[simp] theorem allocateQueues_picks (s : State) : (allocateQueues s).picks = s.picks := rfl

/-! ### clearScalars -/

@[simp] theorem clearScalars_cfg (s : State) : (clearScalars s).cfg = s.cfg := rfl

@[simp] theorem clearScalars_store (s : State) : (clearScalars s).store = s.store := rfl

@[simp] theorem clearScalars_rxq (s : State) : (clearScalars s).rxq = s.rxq := rfl

@[simp] theorem clearScalars_txq (s : State) : (clearScalars s).txq = s.txq := rfl

@[simp] theorem clearScalars_qvalid (s : State) : (clearScalars s).qvalid = s.qvalid := rfl

@[simp] theorem clearScalars_bytesReceived (s : State) : (clearScalars s).bytesReceived = 0#32 := rfl

@[simp] theorem clearScalars_receiveError (s : State) : (clearScalars s).receiveError = false := rfl

@[simp] theorem clearScalars_transmitError (s : State) : (clearScalars s).transmitError = false := rfl

@[simp] theorem clearScalars_gie (s : State) : (clearScalars s).gie = s.gie := rfl

@[simp] theorem clearScalars_lifecycle (s : State) : (clearScalars s).lifecycle = s.lifecycle := rfl

@[simp] theorem clearScalars_callers (s : State) : (clearScalars s).callers = s.callers := rfl

@[simp] theorem clearScalars_isr (s : State) : (clearScalars s).isr = s.isr := rfl

@[simp] theorem clearScalars_faults (s : State) : (clearScalars s).faults = s.faults := rfl

@[simp] theorem clearScalars_responses (s : State) : (clearScalars s).responses = s.responses := rfl

@[simp] theorem clearScalars_schedule (s : State) : (clearScalars s).schedule = s.schedule := rfl

@[simp] theorem clearScalars_active (s : State) : (clearScalars s).active = s.active := rfl

@[simp] theorem clearScalars_picks (s : State) : (clearScalars s).picks = s.picks := rfl

/-! ### openGate -/

@[simp] theorem openGate_cfg (s : State) : (openGate s).cfg = s.cfg := rfl

@[simp] theorem openGate_store (s : State) : (openGate s).store = s.store := rfl

@[simp] theorem openGate_rxq (s : State) : (openGate s).rxq = s.rxq := rfl

@[simp] theorem openGate_txq (s : State) : (openGate s).txq = s.txq := rfl

@[simp] theorem openGate_qvalid (s : State) : (openGate s).qvalid = s.qvalid := rfl

@[simp] theorem openGate_bytesReceived (s : State) : (openGate s).bytesReceived = s.bytesReceived := rfl

@[simp] theorem openGate_receiveError (s : State) : (openGate s).receiveError = s.receiveError := rfl

@[simp] theorem openGate_transmitError (s : State) : (openGate s).transmitError = s.transmitError := rfl

@[simp] theorem openGate_gie (s : State) : (openGate s).gie = true := rfl

@[simp] theorem openGate_lifecycle (s : State) : (openGate s).lifecycle = .started := rfl

@[simp] theorem openGate_callers (s : State) : (openGate s).callers = s.callers := rfl

@[simp] theorem openGate_isr (s : State) : (openGate s).isr = s.isr := rfl

@[simp] theorem openGate_faults (s : State) : (openGate s).faults = s.faults := rfl

@[simp] theorem openGate_responses (s : State) : (openGate s).responses = s.responses := rfl

@[simp] theorem openGate_schedule (s : State) : (openGate s).schedule = s.schedule := rfl

@[simp] theorem openGate_active (s : State) : (openGate s).active = s.active := rfl

@[simp] theorem openGate_picks (s : State) : (openGate s).picks = s.picks := rfl

/-! ### closeGate -/

@[simp] theorem closeGate_cfg (s : State) : (closeGate s).cfg = s.cfg := rfl

@[simp] theorem closeGate_store (s : State) : (closeGate s).store = s.store := rfl

@[simp] theorem closeGate_rxq (s : State) : (closeGate s).rxq = s.rxq := rfl

@[simp] theorem closeGate_txq (s : State) : (closeGate s).txq = s.txq := rfl

@[simp] theorem closeGate_qvalid (s : State) : (closeGate s).qvalid = s.qvalid := rfl

@[simp] theorem closeGate_bytesReceived (s : State) : (closeGate s).bytesReceived = s.bytesReceived := rfl

@[simp] theorem closeGate_receiveError (s : State) : (closeGate s).receiveError = s.receiveError := rfl

@[simp] theorem closeGate_transmitError (s : State) : (closeGate s).transmitError = s.transmitError := rfl

@[simp] theorem closeGate_gie (s : State) : (closeGate s).gie = false := rfl

@[simp] theorem closeGate_lifecycle (s : State) : (closeGate s).lifecycle = .stopping := rfl

@[simp] theorem closeGate_callers (s : State) : (closeGate s).callers = s.callers := rfl

@[simp] theorem closeGate_isr (s : State) : (closeGate s).isr = s.isr := rfl

@[simp] theorem closeGate_faults (s : State) : (closeGate s).faults = s.faults := rfl

@[simp] theorem closeGate_responses (s : State) : (closeGate s).responses = s.responses := rfl

@[simp] theorem closeGate_schedule (s : State) : (closeGate s).schedule = s.schedule := rfl

@[simp] theorem closeGate_active (s : State) : (closeGate s).active = s.active := rfl

@[simp] theorem closeGate_picks (s : State) : (closeGate s).picks = s.picks := rfl

/-! ### destroyQueues -/

@[simp] theorem destroyQueues_cfg (s : State) : (destroyQueues s).cfg = s.cfg := rfl

@[simp] theorem destroyQueues_store (s : State) : (destroyQueues s).store = s.store := rfl

@[simp] theorem destroyQueues_rxq (s : State) : (destroyQueues s).rxq = s.rxq := rfl

@[simp] theorem destroyQueues_txq (s : State) : (destroyQueues s).txq = s.txq := rfl

@[simp] theorem destroyQueues_qvalid (s : State) : (destroyQueues s).qvalid = false := rfl

@[simp] theorem destroyQueues_bytesReceived (s : State) : (destroyQueues s).bytesReceived = s.bytesReceived := rfl

@[simp] theorem destroyQueues_receiveError (s : State) : (destroyQueues s).receiveError = s.receiveError := rfl

@[simp] theorem destroyQueues_transmitError (s : State) : (destroyQueues s).transmitError = s.transmitError := rfl

@[simp] theorem destroyQueues_gie (s : State) : (destroyQueues s).gie = s.gie := rfl

@[simp] theorem destroyQueues_lifecycle (s : State) : (destroyQueues s).lifecycle = .stopped := rfl

@[simp] theorem destroyQueues_callers (s : State) : (destroyQueues s).callers = s.callers := rfl

@[simp] theorem destroyQueues_isr (s : State) : (destroyQueues s).isr = s.isr := rfl

@[simp] theorem destroyQueues_faults (s : State) : (destroyQueues s).faults = s.faults := rfl

@[simp] theorem destroyQueues_responses (s : State) : (destroyQueues s).responses = s.responses := rfl

@[simp] theorem destroyQueues_schedule (s : State) : (destroyQueues s).schedule = s.schedule := rfl

@[simp] theorem destroyQueues_active (s : State) : (destroyQueues s).active = s.active := rfl

@[simp] theorem destroyQueues_picks (s : State) : (destroyQueues s).picks = s.picks := rfl

/-! ### setCaller -/

@[simp] theorem setCaller_cfg (n : Nat) (op : CallerOp) (s : State) : (s.setCaller n op).cfg = s.cfg := rfl

@[simp] theorem setCaller_store (n : Nat) (op : CallerOp) (s : State) : (s.setCaller n op).store = s.store := rfl

@[simp] theorem setCaller_rxq (n : Nat) (op : CallerOp) (s : State) : (s.setCaller n op).rxq = s.rxq := rfl

@[simp] theorem setCaller_txq (n : Nat) (op : CallerOp) (s : State) : (s.setCaller n op).txq = s.txq := rfl

@[simp] theorem setCaller_qvalid (n : Nat) (op : CallerOp) (s : State) : (s.setCaller n op).qvalid = s.qvalid := rfl

@[simp] theorem setCaller_bytesReceived (n : Nat) (op : CallerOp) (s : State) : (s.setCaller n op).bytesReceived = s.bytesReceived := rfl

@[simp] theorem setCaller_receiveError (n : Nat) (op : CallerOp) (s : State) : (s.setCaller n op).receiveError = s.receiveError := rfl

@[simp] theorem setCaller_transmitError (n : Nat) (op : CallerOp) (s : State) : (s.setCaller n op).transmitError = s.transmitError := rfl

@[simp] theorem setCaller_gie (n : Nat) (op : CallerOp) (s : State) : (s.setCaller n op).gie = s.gie := rfl

@[simp] theorem setCaller_lifecycle (n : Nat) (op : CallerOp) (s : State) : (s.setCaller n op).lifecycle = s.lifecycle := rfl

@[simp] theorem setCaller_callers (n : Nat) (op : CallerOp) (s : State) : (s.setCaller n op).callers = Table.put n op s.callers := rfl

@[simp] theorem setCaller_isr (n : Nat) (op : CallerOp) (s : State) : (s.setCaller n op).isr = s.isr := rfl

@[simp] theorem setCaller_faults (n : Nat) (op : CallerOp) (s : State) : (s.setCaller n op).faults = s.faults := rfl

@[simp] theorem setCaller_responses (n : Nat) (op : CallerOp) (s : State) : (s.setCaller n op).responses = s.responses := rfl

@[simp] theorem setCaller_schedule (n : Nat) (op : CallerOp) (s : State) : (s.setCaller n op).schedule = s.schedule := rfl

@[simp] theorem setCaller_active (n : Nat) (op : CallerOp) (s : State) : (s.setCaller n op).active = s.active := rfl

@[simp] theorem setCaller_picks (n : Nat) (op : CallerOp) (s : State) : (s.setCaller n op).picks = s.picks := rfl

/-! ### setIsr -/

@[simp] theorem setIsr_cfg (p : ServicePhase) (s : State) : (s.setIsr p).cfg = s.cfg := rfl

@[simp] theorem setIsr_store (p : ServicePhase) (s : State) : (s.setIsr p).store = s.store := rfl

@[simp] theorem setIsr_rxq (p : ServicePhase) (s : State) : (s.setIsr p).rxq = s.rxq := rfl

@[simp] theorem setIsr_txq (p : ServicePhase) (s : State) : (s.setIsr p).txq = s.txq := rfl

@[simp] theorem setIsr_qvalid (p : ServicePhase) (s : State) : (s.setIsr p).qvalid = s.qvalid := rfl

@[simp] theorem setIsr_bytesReceived (p : ServicePhase) (s : State) : (s.setIsr p).bytesReceived = s.bytesReceived := rfl

@[simp] theorem setIsr_receiveError (p : ServicePhase) (s : State) : (s.setIsr p).receiveError = s.receiveError := rfl

@[simp] theorem setIsr_transmitError (p : ServicePhase) (s : State) : (s.setIsr p).transmitError = s.transmitError := rfl

@[simp] theorem setIsr_gie (p : ServicePhase) (s : State) : (s.setIsr p).gie = s.gie := rfl

@[simp] theorem setIsr_lifecycle (p : ServicePhase) (s : State) : (s.setIsr p).lifecycle = s.lifecycle := rfl

@[simp] theorem setIsr_callers (p : ServicePhase) (s : State) : (s.setIsr p).callers = s.callers := rfl

@[simp] theorem setIsr_isr (p : ServicePhase) (s : State) : (s.setIsr p).isr = some p := rfl

@[simp] theorem setIsr_faults (p : ServicePhase) (s : State) : (s.setIsr p).faults = s.faults := rfl

@[simp] theorem setIsr_responses (p : ServicePhase) (s : State) : (s.setIsr p).responses = s.responses := rfl

@[simp] theorem setIsr_schedule (p : ServicePhase) (s : State) : (s.setIsr p).schedule = s.schedule := rfl

@[simp] theorem setIsr_active (p : ServicePhase) (s : State) : (s.setIsr p).active = s.active := rfl

@[simp] theorem setIsr_picks (p : ServicePhase) (s : State) : (s.setIsr p).picks = s.picks := rfl

/-! ### setIdle -/

@[simp] theorem setIdle_cfg (a : Agent) (s : State) : (s.setIdle a).cfg = s.cfg :=
  by cases a <;> rfl

@[simp] theorem setIdle_store (a : Agent) (s : State) : (s.setIdle a).store = s.store :=
  by cases a <;> rfl

@[simp] theorem setIdle_rxq (a : Agent) (s : State) : (s.setIdle a).rxq = s.rxq :=
  by cases a <;> rfl

@[simp] theorem setIdle_txq (a : Agent) (s : State) : (s.setIdle a).txq = s.txq :=
  by cases a <;> rfl

@[simp] theorem setIdle_qvalid (a : Agent) (s : State) : (s.setIdle a).qvalid = s.qvalid :=
  by cases a <;> rfl

@[simp] theorem setIdle_bytesReceived (a : Agent) (s : State) : (s.setIdle a).bytesReceived = s.bytesReceived :=
  by cases a <;> rfl

@[simp] theorem setIdle_receiveError (a : Agent) (s : State) : (s.setIdle a).receiveError = s.receiveError :=
  by cases a <;> rfl

@[simp] theorem setIdle_transmitError (a : Agent) (s : State) : (s.setIdle a).transmitError = s.transmitError :=
  by cases a <;> rfl

@[simp] theorem setIdle_gie (a : Agent) (s : State) : (s.setIdle a).gie = s.gie :=
  by cases a <;> rfl

@[simp] theorem setIdle_lifecycle (a : Agent) (s : State) : (s.setIdle a).lifecycle = s.lifecycle :=
  by cases a <;> rfl

@[simp] theorem setIdle_faults (a : Agent) (s : State) : (s.setIdle a).faults = s.faults :=
  by cases a <;> rfl

@[simp] theorem setIdle_responses (a : Agent) (s : State) : (s.setIdle a).responses = s.responses :=
  by cases a <;> rfl

@[simp] theorem setIdle_schedule (a : Agent) (s : State) : (s.setIdle a).schedule = s.schedule :=
  by cases a <;> rfl

@[simp] theorem setIdle_active (a : Agent) (s : State) : (s.setIdle a).active = s.active :=
  by cases a <;> rfl

@[simp] theorem setIdle_picks (a : Agent) (s : State) : (s.setIdle a).picks = s.picks :=
  by cases a <;> rfl

/-! ### answer -/

@[simp] theorem answer_cfg (a : Agent) (r : Response) (s : State) : (s.answer a r).cfg = s.cfg :=
  by cases a <;> rfl

@[simp] theorem answer_store (a : Agent) (r : Response) (s : State) : (s.answer a r).store = s.store :=
  by cases a <;> rfl

@[simp] theorem answer_rxq (a : Agent) (r : Response) (s : State) : (s.answer a r).rxq = s.rxq :=
  by cases a <;> rfl

@[simp] theorem answer_txq (a : Agent) (r : Response) (s : State) : (s.answer a r).txq = s.txq :=
  by cases a <;> rfl

@[simp] theorem answer_qvalid (a : Agent) (r : Response) (s : State) : (s.answer a r).qvalid = s.qvalid :=
  by cases a <;> rfl

@[simp] theorem answer_bytesReceived (a : Agent) (r : Response) (s : State) : (s.answer a r).bytesReceived = s.bytesReceived :=
  by cases a <;> rfl

@[simp] theorem answer_receiveError (a : Agent) (r : Response) (s : State) : (s.answer a r).receiveError = s.receiveError :=
  by cases a <;> rfl

@[simp] theorem answer_transmitError (a : Agent) (r : Response) (s : State) : (s.answer a r).transmitError = s.transmitError :=
  by cases a <;> rfl

@[simp] theorem answer_gie (a : Agent) (r : Response) (s : State) : (s.answer a r).gie = s.gie :=
  by cases a <;> rfl

@[simp] theorem answer_lifecycle (a : Agent) (r : Response) (s : State) : (s.answer a r).lifecycle = s.lifecycle :=
  by cases a <;> rfl

@[simp] theorem answer_callers (a : Agent) (r : Response) (s : State) : (s.answer a r).callers = (s.setIdle a).callers := rfl

@[simp] theorem answer_isr (a : Agent) (r : Response) (s : State) : (s.answer a r).isr = (s.setIdle a).isr := rfl

@[simp] theorem answer_faults (a : Agent) (r : Response) (s : State) : (s.answer a r).faults = s.faults :=
  by cases a <;> rfl

@[simp] theorem answer_responses (a : Agent) (r : Response) (s : State) : (s.answer a r).responses = (a, r) :: s.responses := rfl

@[simp] theorem answer_schedule (a : Agent) (r : Response) (s : State) : (s.answer a r).schedule = s.schedule :=
  by cases a <;> rfl

@[simp] theorem answer_active (a : Agent) (r : Response) (s : State) : (s.answer a r).active = s.active :=
  by cases a <;> rfl

@[simp] theorem answer_picks (a : Agent) (r : Response) (s : State) : (s.answer a r).picks = s.picks :=
  by cases a <;> rfl

/-! ### raiseFault -/

@[simp] theorem raiseFault_cfg (a : Agent) (op : Byte) (c : FaultCode) (s : State) : (s.raiseFault a op c).cfg = s.cfg :=
  by cases a <;> rfl

@[simp] theorem raiseFault_store (a : Agent) (op : Byte) (c : FaultCode) (s : State) : (s.raiseFault a op c).store = s.store :=
  by cases a <;> rfl

@[simp] theorem raiseFault_rxq (a : Agent) (op : Byte) (c : FaultCode) (s : State) : (s.raiseFault a op c).rxq = s.rxq :=
  by cases a <;> rfl

@[simp] theorem raiseFault_txq (a : Agent) (op : Byte) (c : FaultCode) (s : State) : (s.raiseFault a op c).txq = s.txq :=
  by cases a <;> rfl

@[simp] theorem raiseFault_qvalid (a : Agent) (op : Byte) (c : FaultCode) (s : State) : (s.raiseFault a op c).qvalid = s.qvalid :=
  by cases a <;> rfl

@[simp] theorem raiseFault_bytesReceived (a : Agent) (op : Byte) (c : FaultCode) (s : State) : (s.raiseFault a op c).bytesReceived = s.bytesReceived :=
  by cases a <;> rfl

@[simp] theorem raiseFault_receiveError (a : Agent) (op : Byte) (c : FaultCode) (s : State) : (s.raiseFault a op c).receiveError = s.receiveError :=
  by cases a <;> rfl

@[simp] theorem raiseFault_transmitError (a : Agent) (op : Byte) (c : FaultCode) (s : State) : (s.raiseFault a op c).transmitError = s.transmitError :=
  by cases a <;> rfl

@[simp] theorem raiseFault_gie (a : Agent) (op : Byte) (c : FaultCode) (s : State) : (s.raiseFault a op c).gie = s.gie :=
  by cases a <;> rfl

@[simp] theorem raiseFault_lifecycle (a : Agent) (op : Byte) (c : FaultCode) (s : State) : (s.raiseFault a op c).lifecycle = s.lifecycle :=
  by cases a <;> rfl

@[simp] theorem raiseFault_callers (a : Agent) (op : Byte) (c : FaultCode) (s : State) : (s.raiseFault a op c).callers = (s.setIdle a).callers := rfl

@[simp] theorem raiseFault_isr (a : Agent) (op : Byte) (c : FaultCode) (s : State) : (s.raiseFault a op c).isr = (s.setIdle a).isr := rfl

@[simp] theorem raiseFault_faults (a : Agent) (op : Byte) (c : FaultCode) (s : State) : (s.raiseFault a op c).faults = addFault ⟨a, op, c⟩ s.faults := rfl

@[simp] theorem raiseFault_responses (a : Agent) (op : Byte) (c : FaultCode) (s : State) : (s.raiseFault a op c).responses = s.responses :=
  by cases a <;> rfl

@[simp] theorem raiseFault_schedule (a : Agent) (op : Byte) (c : FaultCode) (s : State) : (s.raiseFault a op c).schedule = s.schedule :=
  by cases a <;> rfl

@[simp] theorem raiseFault_active (a : Agent) (op : Byte) (c : FaultCode) (s : State) : (s.raiseFault a op c).active = s.active :=
  by cases a <;> rfl

@[simp] theorem raiseFault_picks (a : Agent) (op : Byte) (c : FaultCode) (s : State) : (s.raiseFault a op c).picks = s.picks :=
  by cases a <;> rfl

/-! ### latch -/

@[simp] theorem latch_cfg (a : Agent) (ps : List Nat) (rest : List Turn) (s : State) : (latch a ps rest s).cfg = s.cfg := rfl

@[simp] theorem latch_store (a : Agent) (ps : List Nat) (rest : List Turn) (s : State) : (latch a ps rest s).store = s.store := rfl

@[simp] theorem latch_rxq (a : Agent) (ps : List Nat) (rest : List Turn) (s : State) : (latch a ps rest s).rxq = s.rxq := rfl

@[simp] theorem latch_txq (a : Agent) (ps : List Nat) (rest : List Turn) (s : State) : (latch a ps rest s).txq = s.txq := rfl

@[simp] theorem latch_qvalid (a : Agent) (ps : List Nat) (rest : List Turn) (s : State) : (latch a ps rest s).qvalid = s.qvalid := rfl

@[simp] theorem latch_bytesReceived (a : Agent) (ps : List Nat) (rest : List Turn) (s : State) : (latch a ps rest s).bytesReceived = s.bytesReceived := rfl

@[simp] theorem latch_receiveError (a : Agent) (ps : List Nat) (rest : List Turn) (s : State) : (latch a ps rest s).receiveError = s.receiveError := rfl

@[simp] theorem latch_transmitError (a : Agent) (ps : List Nat) (rest : List Turn) (s : State) : (latch a ps rest s).transmitError = s.transmitError := rfl

@[simp] theorem latch_gie (a : Agent) (ps : List Nat) (rest : List Turn) (s : State) : (latch a ps rest s).gie = s.gie := rfl

@[simp] theorem latch_lifecycle (a : Agent) (ps : List Nat) (rest : List Turn) (s : State) : (latch a ps rest s).lifecycle = s.lifecycle := rfl

@[simp] theorem latch_callers (a : Agent) (ps : List Nat) (rest : List Turn) (s : State) : (latch a ps rest s).callers = s.callers := rfl

@[simp] theorem latch_isr (a : Agent) (ps : List Nat) (rest : List Turn) (s : State) : (latch a ps rest s).isr = s.isr := rfl

@[simp] theorem latch_faults (a : Agent) (ps : List Nat) (rest : List Turn) (s : State) : (latch a ps rest s).faults = s.faults := rfl

@[simp] theorem latch_responses (a : Agent) (ps : List Nat) (rest : List Turn) (s : State) : (latch a ps rest s).responses = s.responses := rfl

@[simp] theorem latch_schedule (a : Agent) (ps : List Nat) (rest : List Turn) (s : State) : (latch a ps rest s).schedule = rest := rfl

@[simp] theorem latch_active (a : Agent) (ps : List Nat) (rest : List Turn) (s : State) : (latch a ps rest s).active = a := rfl

@[simp] theorem latch_picks (a : Agent) (ps : List Nat) (rest : List Turn) (s : State) : (latch a ps rest s).picks = ps := rfl


/-! ### The agents after an update -/

@[simp] theorem setIdle_caller_callers (n : Nat) (s : State) :
    (s.setIdle (.caller n)).callers = Table.erase n s.callers := rfl

@[simp] theorem setIdle_caller_isr (n : Nat) (s : State) : (s.setIdle (.caller n)).isr = s.isr := rfl

@[simp] theorem setIdle_isr_callers (s : State) : (s.setIdle .isr).callers = s.callers := rfl

@[simp] theorem setIdle_isr_isr (s : State) : (s.setIdle .isr).isr = none := rfl

@[simp] theorem setIdle_line (s : State) : s.setIdle .line = s := rfl

@[simp] theorem callerOp_setCaller_same (n : Nat) (op : CallerOp) (s : State) :
    (s.setCaller n op).callerOp n = some op := Table.find_put_same n op s.callers

/-- An idle agent made idle: nothing changes. -/
theorem setIdle_of_idle (a : Agent) (s : State) (h : s.agentIdle a = true) : s.setIdle a = s := by
  cases a with
  | caller n =>
    have : Table.find n s.callers = none := by simpa [State.agentIdle, State.callerOp] using h
    simp only [State.setIdle, Table.erase_absent n s.callers this]
  | isr =>
    have : s.isr = none := by simpa [State.agentIdle] using h
    simp only [State.setIdle, ← this]
  | line => rfl

@[simp] theorem setQueue_queue_same (sel : QueueSel) (q : Queue) (s : State) : (s.setQueue sel q).queue sel = q := by
  cases sel <;> rfl

/-- An answer of an idle agent adds its response and nothing else. -/
theorem answer_of_idle (a : Agent) (r : Response) (s : State) (h : s.agentIdle a = true) :
    s.answer a r = { s with responses := (a, r) :: s.responses } := by
  rw [State.answer, setIdle_of_idle a s h]

/-- A fault of an idle agent adds its record and nothing else. -/
theorem raiseFault_of_idle (a : Agent) (op : Byte) (c : FaultCode) (s : State) (h : s.agentIdle a = true) :
    s.raiseFault a op c = { s with faults := addFault ⟨a, op, c⟩ s.faults } := by
  rw [State.raiseFault, setIdle_of_idle a s h]

end Sys2Proof.Machine
end

