-- ==== Sys2Proof/Laws/Ops.lean ====
section
/-! SUPPORT. What each shared operation can do, said once: admission, the queue steps, launching, and the fields no
micro-step touches. -/

namespace Sys2Proof.Machine

/-- The class nibble selects the agents exactly as the ranges of rule R82's table do. -/
theorem mayIssue_eq_permitted (c : Config) (a : Agent) (op : Byte) : mayIssue c a op = permitted c a op := by
  have key : ∀ op : Byte, opClass op = op.toNat / 16 := by decide
  have hlt := op.isLt
  have hc : opClass op < 16 := by rw [key]; omega
  cases a with
  | caller n =>
    unfold mayIssue permitted
    rw [key op]
    rcases h : op.toNat / 16 with _ | _ | _ | _ | _ | _ | k <;> cases hq : c.queuePortExternal <;> simp_all <;> omega
  | isr =>
    unfold mayIssue permitted
    rw [key op]
    rcases h : op.toNat / 16 with _ | _ | _ | _ | _ | _ | k <;> simp_all <;> omega
  | line =>
    unfold mayIssue permitted
    rw [key op]
    rcases h : op.toNat / 16 with _ | _ | _ | _ | _ | _ | k <;> simp_all <;> omega

/-- A ready agent is present. -/
theorem present_of_ready (s : State) (k : State → Host.Outcome State Fault Refusal) (h : s.activeReady = true) :
    present s k = k s := by
  simp only [State.activeReady, Bool.and_eq_true] at h
  simp [present, h.1, h.2]

/-- An admitted request runs. -/
theorem accept_of_admits (op : Byte) (s : State) (run : State → State) (h : s.admits op = true) :
    accept op s run = .next (run s) := by
  simp only [State.admits, Bool.and_eq_true] at h
  rw [accept, present_of_ready s _ h.1, mayIssue_eq_permitted, if_pos h.2]

/-- A ready agent's request of a class that is not its own is rejected. -/
theorem accept_of_forbidden (op : Byte) (s : State) (run : State → State) (h : s.activeReady = true)
    (hp : permitted s.cfg s.active op = false) :
    accept op s run = .next (rejectIllegal op s) := by
  rw [accept, present_of_ready s _ h, mayIssue_eq_permitted, if_neg (by simp [hp])]

/-- Everything admission can do: run, reject, or stop on a turn that is none of the spec's. -/
theorem accept_cases (op : Byte) (s : State) (run : State → State) :
    (s.admits op = true ∧ accept op s run = .next (run s))
    ∨ (s.activeReady = true ∧ permitted s.cfg s.active op = false ∧ accept op s run = .next (rejectIllegal op s))
    ∨ (s.activeReady = false ∧ ∃ f, accept op s run = .fault f) := by
  by_cases hr : s.activeReady = true
  · by_cases hp : permitted s.cfg s.active op = true
    · have : s.admits op = true := by simp [State.admits, hr, hp]
      exact .inl ⟨this, accept_of_admits op s run this⟩
    · have hp' : permitted s.cfg s.active op = false := by simpa using hp
      exact .inr (.inl ⟨hr, hp', accept_of_forbidden op s run hr hp'⟩)
  · have hr' : s.activeReady = false := by simpa using hr
    refine .inr (.inr ⟨hr', ?_⟩)
    simp only [State.activeReady, Bool.and_eq_false_iff] at hr'
    unfold accept present
    rcases hr' with h | h
    · exact ⟨_, by rw [if_neg (by simp [h])]⟩
    · by_cases he : s.agentExists s.active = true
      · exact ⟨_, by rw [if_pos he, if_neg (by simp [h])]⟩
      · exact ⟨_, by rw [if_neg he]⟩

/-- If admission answers a next state, the request ran or was rejected. -/
theorem accept_next (op : Byte) (s t : State) (run : State → State) (h : accept op s run = .next t) :
    s.activeReady = true ∧ (t = run s ∨ t = rejectIllegal op s) := by
  rcases accept_cases op s run with ⟨ha, he⟩ | ⟨hr, -, he⟩ | ⟨-, f, he⟩
  · simp only [State.admits, Bool.and_eq_true] at ha
    rw [he] at h; cases h; exact ⟨ha.1, .inl rfl⟩
  · rw [he] at h; cases h; exact ⟨hr, .inr rfl⟩
  · rw [he] at h; cases h

theorem idle_of_ready (s : State) (h : s.activeReady = true) : s.agentIdle s.active = true := by
  simp only [State.activeReady, Bool.and_eq_true] at h
  exact h.2

theorem idle_of_admits (op : Byte) (s : State) (h : s.admits op = true) : s.agentIdle s.active = true := by
  simp only [State.admits, Bool.and_eq_true] at h
  exact idle_of_ready s h.1

/-- The agent of an admitted FB, FQ or FD request is a caller (rule R82). -/
theorem caller_of_admits (op : Byte) (s : State) (h : s.admits op = true) (ho : op.toNat < 0x40) :
    ∃ n, s.active = .caller n ∧ s.callerOp n = none := by
  have hi := idle_of_admits op s h
  simp only [State.admits, Bool.and_eq_true] at h
  cases ha : s.active with
  | caller n => rw [ha] at hi; exact ⟨n, rfl, by simpa [State.agentIdle] using hi⟩
  | isr => simp [permitted, ha] at h; omega
  | line => simp [permitted, ha] at h; omega

/-- The agent of an admitted SERVICE is the ISR (rule R82). -/
theorem isr_of_admits (s : State) (h : s.admits 0x40#8 = true) : s.active = .isr ∧ s.isr = none := by
  have hi := idle_of_admits _ s h
  simp only [State.admits, Bool.and_eq_true] at h
  cases ha : s.active with
  | caller n => simp [permitted, ha] at h
  | isr => rw [ha] at hi; exact ⟨rfl, by simpa [State.agentIdle] using hi⟩
  | line => simp [permitted, ha] at h

/-- Whether an agent is idle depends on the sequencing state alone. -/
theorem agentIdle_congr (s t : State) (a : Agent) (hc : t.callers = s.callers) (hi : t.isr = s.isr) :
    t.agentIdle a = s.agentIdle a := by
  cases a <;> simp [State.agentIdle, State.callerOp, hc, hi]

/-- Every meaning is an admission of its opcode byte. -/
theorem exec_is_accept (i : Instr) : ∃ run : State → State, ∀ s, exec i s = accept i.opcode s run := by
  cases i <;> exact ⟨_, fun s => rfl⟩

/-- Rejecting a ready agent's request adds one record and nothing else (rule R93). -/
theorem rejectIllegal_of_ready (op : Byte) (s : State) (h : s.activeReady = true) :
    rejectIllegal op s = { s with faults := addFault ⟨s.active, op, .illegalOp⟩ s.faults } :=
  raiseFault_of_idle _ _ _ s (idle_of_ready s h)

/-! ### Queue steps -/

theorem enqState_of_ok (sel : QueueSel) (b : Byte) (s : State) (h : enqAnswer sel s = .ok) :
    enqState sel b s = s.setQueue sel ((s.queue sel).push s.cfg.qcap b) := by
  simp only [enqState, h]

theorem enqState_of_not_ok (sel : QueueSel) (b : Byte) (s : State) (h : enqAnswer sel s ≠ .ok) :
    enqState sel b s = s := by
  unfold enqState
  split <;> simp_all

theorem deqState_of_ok (sel : QueueSel) (s : State) (h : deqAnswer sel s = .ok) :
    deqState sel s = s.setQueue sel ((s.queue sel).pop s.cfg.qcap) := by
  simp only [deqState, h]

theorem deqState_of_not_ok (sel : QueueSel) (s : State) (h : deqAnswer sel s ≠ .ok) : deqState sel s = s := by
  unfold deqState
  split <;> simp_all

/-- The answers QENQ can give (rule R131): never EMPTY. -/
theorem enqAnswer_cases (sel : QueueSel) (s : State) :
    (s.qvalid = true ∧ (s.queue sel).count = s.cfg.qcap ∧ enqAnswer sel s = .full)
    ∨ (s.qvalid = true ∧ (s.queue sel).count ≠ s.cfg.qcap ∧ enqAnswer sel s = .ok)
    ∨ (s.qvalid = false ∧ enqAnswer sel s = .fail) := by
  unfold enqAnswer
  by_cases hq : s.qvalid = true <;> by_cases hc : (s.queue sel).count = s.cfg.qcap <;> simp_all

/-- The answers QDEQ can give (rule R132): never FULL. -/
theorem deqAnswer_cases (sel : QueueSel) (s : State) :
    (s.qvalid = true ∧ (s.queue sel).count = 0 ∧ deqAnswer sel s = .empty)
    ∨ (s.qvalid = true ∧ (s.queue sel).count ≠ 0 ∧ deqAnswer sel s = .ok)
    ∨ (s.qvalid = false ∧ deqAnswer sel s = .fail) := by
  unfold deqAnswer
  by_cases hq : s.qvalid = true <;> by_cases hc : (s.queue sel).count = 0 <;> simp_all

@[simp] theorem queueDenied_of_valid (s : State) (h : s.qvalid = true) : s.queueDenied = false := by
  simp [State.queueDenied, h]

/-! ### Turns -/

@[simp] theorem runAgent_nil (a : Agent) (s : State) : runAgent a [] s = s := rfl

@[simp] theorem runAgent_cons (a : Agent) (p : Nat) (ps : List Nat) (s : State) :
    runAgent a (p :: ps) s = runAgent a ps (microStep a p s) := rfl

theorem runAgent_append (a : Agent) (ps qs : List Nat) (s : State) :
    runAgent a (ps ++ qs) s = runAgent a qs (runAgent a ps s) := by
  induction ps generalizing s with
  | nil => rfl
  | cons p ps ih => exact ih _

/-- An idle agent does nothing. -/
theorem microStep_of_idle (a : Agent) (p : Nat) (s : State) (h : s.agentIdle a = true) : microStep a p s = s := by
  cases a with
  | caller n =>
    have : s.callerOp n = none := by simpa [State.agentIdle] using h
    simp [microStep, this]
  | isr =>
    have : s.isr = none := by simpa [State.agentIdle] using h
    simp [microStep, this]
  | line => rfl

/-- An idle agent does nothing in a whole turn. -/
theorem runAgent_of_idle (a : Agent) (ps : List Nat) (s : State) (h : s.agentIdle a = true) : runAgent a ps s = s := by
  induction ps with
  | nil => rfl
  | cons p ps ih => rw [runAgent_cons, microStep_of_idle a p s h, ih]

/-- After an answer the agent is idle. -/
@[simp] theorem agentIdle_answer (a : Agent) (r : Response) (s : State) : (s.answer a r).agentIdle a = true := by
  cases a <;> simp [State.agentIdle, State.callerOp]

/-- After a fault the agent is idle (rule R227). -/
@[simp] theorem agentIdle_raiseFault (a : Agent) (op : Byte) (c : FaultCode) (s : State) :
    (s.raiseFault a op c).agentIdle a = true := by
  cases a <;> simp [State.agentIdle, State.callerOp]

/-- A property that holds of a state and that every micro-step of the agent keeps holds after its turn. -/
theorem runAgent_keeps (P : State → Prop) (a : Agent) (hP : ∀ p s, P s → P (microStep a p s)) (ps : List Nat)
    (s : State) (h : P s) : P (runAgent a ps s) := by
  induction ps generalizing s with
  | nil => exact h
  | cons p ps ih => exact ih _ (hP p s h)

/-- A request of the active agent that keeps a property: launching an operation keeps what putting it in flight and
every micro-step keep. -/
theorem launch_keeps (P : State → Prop) (op : CallerOp) (s : State)
    (h0 : ∀ n, P (s.setCaller n op)) (hs : P s) (hP : ∀ a p s, P s → P (microStep a p s)) : P (launch op s) := by
  unfold launch
  split
  · exact runAgent_keeps P _ (hP _) _ _ (h0 _)
  · exact hs
  · exact hs

end Sys2Proof.Machine
end

