-- ==== Sys2Proof/Laws/PerInstr.lean ====
section
/-! SUPPORT. Statements about every instruction as syntax, one lemma per constructor: the byte image of an operation
starts with its opcode byte, which rule R89 lists, in the class of its format (rule R82). -/

namespace Sys2Proof.Laws.OpcodeClass

open Sys2Proof Sys2Proof.Machine

/-- The class nibble of an operation's format: FB 1, FQ 2, FD 3, FS 4, FL 5 (rules R82 to R88). -/
def formatClass : Instr → Nat
  | .rd8 _ => 1
  | .rd16 _ => 1
  | .rd32 _ => 1
  | .wr8 _ _ => 1
  | .wr16 _ _ => 1
  | .wr32 _ _ => 1
  | .qenq _ _ => 2
  | .qdeq _ => 2
  | .qfull _ => 2
  | .qempty _ => 2
  | .qlen _ => 2
  | .start => 3
  | .stop => 3
  | .writeb _ _ => 3
  | .readb _ => 3
  | .readnb _ => 3
  | .rxlen => 3
  | .txlen => 3
  | .totalrx => 3
  | .rxerr => 3
  | .txerr => 3
  | .service => 4
  | .lflags _ _ => 5
  | .lrxdata _ => 5
  | .lpeek _ => 5
  | .lpoke _ _ => 5

/-- The opcode byte heads the byte image, is legal, and is of the format's class. -/
def Statement (i : Instr) : Prop :=
  (encode i).head? = some i.opcode ∧ legalOpcode i.opcode = true ∧ opClass i.opcode = formatClass i

theorem rd8 (addr : Addr) : Statement (.rd8 addr) :=
  ⟨rfl, rfl, (by decide : opClass 0x10#8 = 1)⟩

theorem rd16 (addr : Addr) : Statement (.rd16 addr) :=
  ⟨rfl, rfl, (by decide : opClass 0x11#8 = 1)⟩

theorem rd32 (addr : Addr) : Statement (.rd32 addr) :=
  ⟨rfl, rfl, (by decide : opClass 0x12#8 = 1)⟩

theorem wr8 (addr : Addr) (wdata : Word) : Statement (.wr8 addr wdata) :=
  ⟨rfl, rfl, (by decide : opClass 0x18#8 = 1)⟩

theorem wr16 (addr : Addr) (wdata : Word) : Statement (.wr16 addr wdata) :=
  ⟨rfl, rfl, (by decide : opClass 0x19#8 = 1)⟩

theorem wr32 (addr : Addr) (wdata : Word) : Statement (.wr32 addr wdata) :=
  ⟨rfl, rfl, (by decide : opClass 0x1A#8 = 1)⟩

theorem qenq (sel : QueueSel) (data : Byte) : Statement (.qenq sel data) := by
  cases sel
  · exact ⟨rfl, rfl, (by decide : opClass 0x20#8 = 2)⟩
  · exact ⟨rfl, rfl, (by decide : opClass 0x28#8 = 2)⟩

theorem qdeq (sel : QueueSel) : Statement (.qdeq sel) := by
  cases sel
  · exact ⟨rfl, rfl, (by decide : opClass 0x21#8 = 2)⟩
  · exact ⟨rfl, rfl, (by decide : opClass 0x29#8 = 2)⟩

theorem qfull (sel : QueueSel) : Statement (.qfull sel) := by
  cases sel
  · exact ⟨rfl, rfl, (by decide : opClass 0x22#8 = 2)⟩
  · exact ⟨rfl, rfl, (by decide : opClass 0x2A#8 = 2)⟩

theorem qempty (sel : QueueSel) : Statement (.qempty sel) := by
  cases sel
  · exact ⟨rfl, rfl, (by decide : opClass 0x23#8 = 2)⟩
  · exact ⟨rfl, rfl, (by decide : opClass 0x2B#8 = 2)⟩

theorem qlen (sel : QueueSel) : Statement (.qlen sel) := by
  cases sel
  · exact ⟨rfl, rfl, (by decide : opClass 0x24#8 = 2)⟩
  · exact ⟨rfl, rfl, (by decide : opClass 0x2C#8 = 2)⟩

theorem start : Statement .start :=
  ⟨rfl, rfl, (by decide : opClass 0x30#8 = 3)⟩

theorem stop : Statement .stop :=
  ⟨rfl, rfl, (by decide : opClass 0x31#8 = 3)⟩

theorem writeb (len : Word) (bytes : List Byte) : Statement (.writeb len bytes) :=
  ⟨rfl, rfl, (by decide : opClass 0x32#8 = 3)⟩

theorem readb (count : Word) : Statement (.readb count) :=
  ⟨rfl, rfl, (by decide : opClass 0x33#8 = 3)⟩

theorem readnb (count : Word) : Statement (.readnb count) :=
  ⟨rfl, rfl, (by decide : opClass 0x34#8 = 3)⟩

theorem rxlen : Statement .rxlen :=
  ⟨rfl, rfl, (by decide : opClass 0x35#8 = 3)⟩

theorem txlen : Statement .txlen :=
  ⟨rfl, rfl, (by decide : opClass 0x36#8 = 3)⟩

theorem totalrx : Statement .totalrx :=
  ⟨rfl, rfl, (by decide : opClass 0x37#8 = 3)⟩

theorem rxerr : Statement .rxerr :=
  ⟨rfl, rfl, (by decide : opClass 0x38#8 = 3)⟩

theorem txerr : Statement .txerr :=
  ⟨rfl, rfl, (by decide : opClass 0x39#8 = 3)⟩

theorem service : Statement .service :=
  ⟨rfl, rfl, (by decide : opClass 0x40#8 = 4)⟩

theorem lflags (m : BitVec 3) (v : BitVec 3) : Statement (.lflags m v) :=
  ⟨rfl, rfl, (by decide : opClass 0x50#8 = 5)⟩

theorem lrxdata (b : Byte) : Statement (.lrxdata b) :=
  ⟨rfl, rfl, (by decide : opClass 0x51#8 = 5)⟩

theorem lpeek (k : BitVec 2) : Statement (.lpeek k) :=
  ⟨rfl, rfl, (by decide : opClass 0x52#8 = 5)⟩

theorem lpoke (k : BitVec 2) (b : Byte) : Statement (.lpoke k b) :=
  ⟨rfl, rfl, (by decide : opClass 0x53#8 = 5)⟩

end Sys2Proof.Laws.OpcodeClass
end

