-- ==== Sys2Proof/Laws/Queue.lean ====
section
/-! SUPPORT. The ring as a sequence: what push and pop do to the content, and that they keep the queue invariant
(10_state.md rules R35, R36, 41_queue.md rules R131, R132). -/

namespace Sys2Proof.Machine

@[simp] theorem Queue.items_length (qcap : Nat) (q : Queue) : (q.items qcap).length = q.count := by
  simp [Queue.items]

theorem Queue.wf_iff (qcap : Nat) (q : Queue) :
    q.wf qcap = true ↔ q.count ≤ qcap ∧ q.front < qcap ∧ q.rear = (q.front + q.count) % qcap
      ∧ q.buf.wf = true ∧ Table.below qcap q.buf = true := by
  simp only [Queue.wf, Bool.and_eq_true, decide_eq_true_eq, and_assoc]

/-- Two slots of the ring at different distances from `front` are different. -/
theorem ring_slot_ne (qcap front i j : Nat) (hij : i < j) (hj : j < i + qcap) :
    (front + i) % qcap ≠ (front + j) % qcap := by
  intro h
  have h1 : (front + i) ≡ (front + j) [MOD qcap] := h
  have h2 : qcap ∣ (front + j) - (front + i) := (Nat.modEq_iff_dvd' (by omega)).mp h1
  have h3 : (front + j) - (front + i) = j - i := by omega
  rw [h3] at h2
  have := Nat.le_of_dvd (by omega) h2
  omega

/-- An accepted byte goes to the end of the content. -/
theorem Queue.items_push (qcap : Nat) (b : Byte) (q : Queue) (h : q.wf qcap = true) (hc : q.count ≠ qcap) :
    (q.push qcap b).items qcap = q.items qcap ++ [b] := by
  obtain ⟨hle, hf, hr, -, -⟩ := (Queue.wf_iff qcap q).mp h
  have hlt : q.count < qcap := lt_of_le_of_ne hle hc
  simp only [Queue.items, Queue.push, List.range_succ, List.map_append, List.map_cons, List.map_nil]
  congr 1
  · apply List.map_congr_left
    intro i hi
    rw [List.mem_range] at hi
    apply Memory.read_write_other
    rw [hr]
    exact ring_slot_ne qcap q.front i q.count hi (by omega)
  · rw [← hr, Memory.read_write_same]

/-- A dequeue takes the first byte of the content. -/
theorem Queue.items_pop (qcap : Nat) (q : Queue) (h : q.front < qcap) (hc : q.count ≠ 0) :
    q.items qcap = q.oldest :: (q.pop qcap).items qcap := by
  obtain ⟨k, hk⟩ : ∃ k, q.count = k + 1 := ⟨q.count - 1, by omega⟩
  simp only [Queue.items, Queue.pop, Queue.oldest, hk, Nat.add_sub_cancel, List.range_succ_eq_map, List.map_cons,
    List.map_map, Nat.add_zero, Nat.mod_eq_of_lt h]
  congr 1
  apply List.map_congr_left
  intro i _
  simp only [Function.comp_apply, Nat.succ_eq_add_one]
  congr 1
  rw [Nat.mod_add_mod]
  congr 1
  omega

theorem Queue.wf_push (qcap : Nat) (b : Byte) (q : Queue) (h : q.wf qcap = true) (hc : q.count ≠ qcap) :
    (q.push qcap b).wf qcap = true := by
  obtain ⟨hle, hf, hr, hw, hb⟩ := (Queue.wf_iff qcap q).mp h
  refine (Queue.wf_iff qcap _).mpr ⟨?_, hf, ?_, Memory.wf_write _ _ _ hw, ?_⟩
  · simp only [Queue.push]; omega
  · simp only [Queue.push]; rw [hr, Nat.mod_add_mod, Nat.add_assoc]
  · apply Memory.below_write _ _ _ _ hb
    rw [hr]; exact Nat.mod_lt _ (by omega)

theorem Queue.wf_pop (qcap : Nat) (q : Queue) (h : q.wf qcap = true) (hc : q.count ≠ 0) :
    (q.pop qcap).wf qcap = true := by
  obtain ⟨hle, hf, hr, hw, hb⟩ := (Queue.wf_iff qcap q).mp h
  refine (Queue.wf_iff qcap _).mpr ⟨?_, Nat.mod_lt _ (by omega), ?_, hw, hb⟩
  · simp only [Queue.pop]; omega
  · simp only [Queue.pop]
    rw [hr, Nat.mod_add_mod]
    congr 1
    omega

theorem Queue.wf_construct (qcap : Nat) (q : Queue) (h : q.wf qcap = true) : q.construct.wf qcap = true := by
  obtain ⟨hle, hf, hr, hw, hb⟩ := (Queue.wf_iff qcap q).mp h
  exact (Queue.wf_iff qcap _).mpr ⟨Nat.zero_le _, by simp only [Queue.construct]; omega, by simp [Queue.construct], hw, hb⟩

end Sys2Proof.Machine
end

