-- ==== Sys2Proof/Tests/Slice0.lean ====
section
/-! SUPPORT. Tests on single steps, with expected results from the spec's encodings (30_encoding.md) and vectors
(95_test_vectors.md), and for every obligation with hypotheses a concrete state and operands that meet them. -/

namespace Sys2Proof.Tests

open Sys2Proof Sys2Proof.Machine

/-! ### Well-formedness -/

theorem test_writeb_with_wrong_length_is_ill_formed :
    (Instr.writeb 2#32 [0x48#8]).wellFormed = false ∧ (Instr.writeb 0#32 [0x48#8]).wellFormed = false
      ∧ (Instr.writeb 2#32 [0x48#8, 0x69#8]).wellFormed = true := by decide

/-! ### Decoding: one word per constructor, its opcode byte written bit by bit from rules R82 to R88 -/

/-- 0001, W 0, 0, wc 00. -/
theorem test_decode_rd8 :
    decodeRequest [0b00010000#8, 0x01#8, 0x10#8, 0x00#8, 0x80#8] = .ok (.rd8 0x80001001#32) := by decide

/-- 0001, W 0, 0, wc 01. -/
theorem test_decode_rd16 :
    decodeRequest [0b00010001#8, 0x02#8, 0x10#8, 0x00#8, 0x00#8] = .ok (.rd16 0x1002#32) := by decide

/-- 0001, W 0, 0, wc 10. -/
theorem test_decode_rd32 :
    decodeRequest [0b00010010#8, 0x78#8, 0x56#8, 0x34#8, 0x12#8] = .ok (.rd32 0x12345678#32) := by decide

/-- 0001, W 1, 0, wc 00. -/
theorem test_decode_wr8 :
    decodeRequest [0b00011000#8, 0x02#8, 0x10#8, 0x00#8, 0x00#8, 0x77#8, 0x01#8, 0x00#8, 0x00#8] = .ok (.wr8 0x1002#32 0x177#32) := by decide

/-- 0001, W 1, 0, wc 01. -/
theorem test_decode_wr16 :
    decodeRequest [0b00011001#8, 0x00#8, 0x10#8, 0x00#8, 0x00#8, 0xFF#8, 0xFE#8, 0x00#8, 0x00#8] = .ok (.wr16 0x1000#32 0xFEFF#32) := by decide

/-- 0001, W 1, 0, wc 10. -/
theorem test_decode_wr32 :
    decodeRequest [0b00011010#8, 0x00#8, 0x10#8, 0x00#8, 0x00#8, 0x78#8, 0x56#8, 0x34#8, 0x12#8] = .ok (.wr32 0x1000#32 0x12345678#32) := by decide

/-- 0010, sel, fn 000. -/
theorem test_decode_qenq :
    decodeRequest [0b00100000#8, 0x48#8] = .ok (.qenq .rx 0x48#8)
      ∧ decodeRequest [0b00101000#8, 0x69#8] = .ok (.qenq .tx 0x69#8) := by decide

/-- 0010, sel, fn 001. -/
theorem test_decode_qdeq :
    decodeRequest [0b00100001#8] = .ok (.qdeq .rx)
      ∧ decodeRequest [0b00101001#8] = .ok (.qdeq .tx) := by decide

/-- 0010, sel, fn 010. -/
theorem test_decode_qfull :
    decodeRequest [0b00100010#8] = .ok (.qfull .rx)
      ∧ decodeRequest [0b00101010#8] = .ok (.qfull .tx) := by decide

/-- 0010, sel, fn 011. -/
theorem test_decode_qempty :
    decodeRequest [0b00100011#8] = .ok (.qempty .rx)
      ∧ decodeRequest [0b00101011#8] = .ok (.qempty .tx) := by decide

/-- 0010, sel, fn 100. -/
theorem test_decode_qlen :
    decodeRequest [0b00100100#8] = .ok (.qlen .rx)
      ∧ decodeRequest [0b00101100#8] = .ok (.qlen .tx) := by decide

/-- 0011, fn 0000. -/
theorem test_decode_start :
    decodeRequest [0b00110000#8] = .ok (.start) := by decide

/-- 0011, fn 0001. -/
theorem test_decode_stop :
    decodeRequest [0b00110001#8] = .ok (.stop) := by decide

/-- 0011, fn 0010. -/
theorem test_decode_writeb :
    decodeRequest [0b00110010#8, 0x02#8, 0x00#8, 0x00#8, 0x00#8, 0x48#8, 0x69#8] = .ok (.writeb 2#32 [0x48#8, 0x69#8]) := by decide

/-- 0011, fn 0011. -/
theorem test_decode_readb :
    decodeRequest [0b00110011#8, 0x00#8, 0x01#8, 0x00#8, 0x00#8] = .ok (.readb 256#32) := by decide

/-- 0011, fn 0100. -/
theorem test_decode_readnb :
    decodeRequest [0b00110100#8, 0x05#8, 0x00#8, 0x00#8, 0x00#8] = .ok (.readnb 5#32) := by decide

/-- 0011, fn 0101. -/
theorem test_decode_rxlen :
    decodeRequest [0b00110101#8] = .ok (.rxlen) := by decide

/-- 0011, fn 0110. -/
theorem test_decode_txlen :
    decodeRequest [0b00110110#8] = .ok (.txlen) := by decide

/-- 0011, fn 0111. -/
theorem test_decode_totalrx :
    decodeRequest [0b00110111#8] = .ok (.totalrx) := by decide

/-- 0011, fn 1000. -/
theorem test_decode_rxerr :
    decodeRequest [0b00111000#8] = .ok (.rxerr) := by decide

/-- 0011, fn 1001. -/
theorem test_decode_txerr :
    decodeRequest [0b00111001#8] = .ok (.txerr) := by decide

/-- 0100, fn 0000. -/
theorem test_decode_service :
    decodeRequest [0b01000000#8] = .ok (.service) := by decide

/-- 0101, fn 0000. -/
theorem test_decode_lflags :
    decodeRequest [0b01010000#8, 0b110#8, 0b011#8] = .ok (.lflags 0b110#3 0b011#3) := by decide

/-- 0101, fn 0001. -/
theorem test_decode_lrxdata :
    decodeRequest [0b01010001#8, 0x48#8] = .ok (.lrxdata 0x48#8) := by decide

/-- 0101, fn 0010. -/
theorem test_decode_lpeek :
    decodeRequest [0b01010010#8, 0x02#8] = .ok (.lpeek 2#2) := by decide

/-- 0101, fn 0011. -/
theorem test_decode_lpoke :
    decodeRequest [0b01010011#8, 0x01#8, 0x1F#8] = .ok (.lpoke 1#2 0x1F#8) := by decide

/-- Width code 11, op[2] = 1, the reserved functions of FQ, FD, FS and FL, the reserved classes (rules R84 to R89, R92). -/
theorem test_decode_reserved_bytes :
    [0x00#8, 0x0F#8, 0x13#8, 0x14#8, 0x17#8, 0x1B#8, 0x1C#8, 0x1F#8, 0x25#8, 0x27#8, 0x2D#8, 0x2F#8, 0x3A#8, 0x3F#8,
      0x41#8, 0x4F#8, 0x54#8, 0x5F#8, 0x60#8, 0xFF#8].all
        (fun op => decide (decode [op, 0#8, 0#8, 0#8, 0#8] = .error (.illegalOpcode op))) = true := by decide

/-- The operands of a request are complete, in range, and followed by nothing (rules R83 to R88, R95). -/
theorem test_decode_bad_operands :
    decodeRequest [0x11#8, 0x00#8, 0x10#8, 0x00#8] = .error (.truncated 0x11#8)
      ∧ decodeRequest [0x32#8, 0x02#8, 0x00#8, 0x00#8, 0x00#8, 0x48#8] = .error (.truncated 0x32#8)
      ∧ decodeRequest [0x52#8, 0x04#8] = .error (.operandRange 0x52#8)
      ∧ decodeRequest [0x50#8, 0x08#8, 0x00#8] = .error (.operandRange 0x50#8)
      ∧ decodeRequest [0x30#8, 0x00#8] = .error (.trailingBytes 0x30#8) := by decide

/-- The encoded form of rule R96, as 95_test_vectors.md P4 and P1 write it. -/
theorem test_encoded_form :
    encodedForm (.wr16 0x1000#32 0xFFFF#32) = "op=0x19 addr=0x00001000 wdata=0x0000FFFF"
      ∧ encodedForm .txlen = "op=0x36"
      ∧ encodedForm (.lrxdata 0x48#8) = "op=0x51 b=0x48" := by decide

/-! ### States -/

/-- The parameters of 95_test_vectors.md section 0, with two callers. -/
def benchCfg : Config where
  statusBase := 0x1000#32
  qcap := 256
  nCallers := 2
  startMayFail := false
  stoppedQueuePolicy := .fail
  gatedService := .ignore
  queuePortExternal := false

/-- Power-on reset with those parameters. -/
def bench : State := { State.reset with cfg := benchCfg }

/-- "started": the state right after START from reset. -/
def started : State :=
  { bench with store := [(1, 0xE0#8)], qvalid := true, gie := true, lifecycle := .started }

/-- The start state of section 2: STATUS 0xE003, DATA 0x0048. -/
def regs : State := { bench with store := [(0, 0x03#8), (1, 0xE0#8), (2, 0x48#8)] }

/-- A queue with these bytes (all of them nonzero), oldest in slot 0. -/
def ring (bs : List Byte) : Queue :=
  { buf := (List.range bs.length).map fun k => (k, bs.getD k 0#8), front := 0, rear := bs.length, count := bs.length }

/-- A queue of 256 zero bytes. -/
def fullRing : Queue := { buf := [], front := 0, rear := 0, count := 256 }

/-- `QUEUE_PORT_EXTERNAL = true`, queues allocated: the stand-alone test bench of section 3. -/
def portBench : State :=
  { bench with cfg := { benchCfg with queuePortExternal := true }, qvalid := true, lifecycle := .started, gie := true }

/-- The start state of section 5.1 with this STATUS. -/
def serviceBench (lo hi : Byte) : State :=
  { started with
      store := Memory.write (Memory.write [(2, 0x55#8)] 0 lo) 1 hi
      txq := ring [0x41#8, 0x42#8] }

/-- The state after one turn in which the agent issues the request and it runs to completion. -/
def after (s : State) (a : Agent) (i : Instr) : Option State :=
  match step { s with schedule := listing s.cfg [(a, i)] } with
  | .next t => some t
  | .fault _ => none
  | .refused _ => none

/-- What the agent then received. -/
def answer (s : State) (a : Agent) (i : Instr) : Option Response :=
  (after s a i).bind fun t => t.responses.head?.map (·.2)

/-- The faults then recorded. -/
def faultsAfter (s : State) (a : Agent) (i : Instr) : Option (List FaultRecord) := (after s a i).map (·.faults)

/-- STATUS and DATA then. -/
def registersAfter (s : State) (a : Agent) (i : Instr) : Option (Half × Half) :=
  (after s a i).map fun t => (t.status, t.data)

/-- The columns of section 5.1: RXQ, TXQ, DATA, bytesReceived, receiveError, transmitError. -/
structure Serviced where
  rxq : List Byte
  txq : List Byte
  data : Half
  bR : Word
  rE : Bool
  tE : Bool
deriving DecidableEq, Repr

/-- They after a SERVICE. -/
def serviced (s : State) : Option Serviced :=
  (after s .isr .service).map fun t =>
    ⟨t.rxq.items t.cfg.qcap, t.txq.items t.cfg.qcap, t.data, t.bytesReceived, t.receiveError, t.transmitError⟩

/-- The machine answers a next state. -/
def goesOn (s : State) : Bool :=
  match step s with
  | .next _ => true
  | .fault _ => false
  | .refused _ => false

theorem next_of_goesOn {s : State} (h : goesOn s = true) : ∃ t, step s = .next t := by
  unfold goesOn at h
  split at h
  · exact ⟨_, by assumption⟩
  · cases h
  · cases h

/-! ### The register bus (95_test_vectors.md section 2) -/

/-- B2, B5. -/
theorem test_rd8 :
    answer regs (.caller 1) (.rd8 0x1001#32) = some (.rdata 0xE0#32)
      ∧ answer regs (.caller 1) (.rd8 0x1004#32) = some (.rdata 0x0#32) := by
  exact ⟨by decide, by decide⟩

/-- B8, B11. -/
theorem test_rd16 :
    answer regs (.caller 1) (.rd16 0x1001#32) = some (.rdata 0x48E0#32)
      ∧ answer regs (.caller 1) (.rd16 0x0FFF#32) = some (.rdata 0x300#32) := by
  exact ⟨by decide, by decide⟩

/-- B18: the address of the second byte wraps. -/
theorem test_rd16_address_wraps :
    answer { regs with cfg := { benchCfg with statusBase := 0#32 } } (.caller 1) (.rd16 0xFFFFFFFF#32)
      = some (.rdata 0x300#32) := by decide

/-- B12, B14. -/
theorem test_rd32 :
    answer regs (.caller 1) (.rd32 0x1000#32) = some (.rdata 0x0048E003#32)
      ∧ answer regs (.caller 1) (.rd32 0x0FFE#32) = some (.rdata 0xE0030000#32) := by
  exact ⟨by decide, by decide⟩

/-- W13, W9, W10, W11. -/
theorem test_wr8 :
    registersAfter regs (.caller 1) (.wr8 0x1001#32 0x3F#32) = some (0x2003#16, 0x0048#16)
      ∧ registersAfter regs (.caller 1) (.wr8 0x1002#32 0x177#32) = some (0xE003#16, 0x0077#16)
      ∧ registersAfter regs (.caller 1) (.wr8 0x1003#32 0xFF#32) = some (0xE003#16, 0x0048#16)
      ∧ registersAfter regs (.caller 1) (.wr8 0x1000#32 0xFF#32) = some (0xE003#16, 0x0048#16) := by
  exact ⟨by decide, by decide, by decide, by decide⟩

/-- W4, W6, W14. -/
theorem test_wr16 :
    registersAfter regs (.caller 1) (.wr16 0x1000#32 0x4000#32) = some (0x4003#16, 0x0048#16)
      ∧ registersAfter regs (.caller 1) (.wr16 0x1002#32 0xABCD#32) = some (0xE003#16, 0x00CD#16)
      ∧ registersAfter regs (.caller 1) (.wr16 0x1001#32 0x1234#32) = some (0x2003#16, 0x0012#16) := by
  exact ⟨by decide, by decide, by decide⟩

/-- W20: reserved bits survive a write. -/
theorem test_wr16_keeps_reserved_bits :
    registersAfter { bench with store := [(1, 0x1F#8)] } (.caller 1) (.wr16 0x1000#32 0x0#32) = some (0x1F00#16, 0x0000#16) := by decide

/-- W15, W16. -/
theorem test_wr32 :
    registersAfter bench (.caller 1) (.wr32 0x1000#32 0x12345678#32) = some (0x4000#16, 0x0034#16)
      ∧ registersAfter bench (.caller 1) (.wr32 0x0FFF#32 0xFFFFFFFF#32) = some (0xE000#16, 0x00FF#16) := by
  exact ⟨by decide, by decide⟩

/-! ### The queue port (95_test_vectors.md section 3) -/

/-- Q3, Q5. -/
theorem test_qenq :
    answer portBench (.caller 1) (.qenq .rx 0x48#8) = some (.qres .ok)
      ∧ (after portBench (.caller 1) (.qenq .rx 0x48#8)).map (fun t => (t.rxq, t.txq.count))
        = some (ring [0x48#8], 0)
      ∧ answer { portBench with rxq := fullRing } (.caller 1) (.qenq .rx 0xAA#8) = some (.qres .full) := by
  exact ⟨by decide, by decide, by decide⟩

/-- Q10, Q11. -/
theorem test_qenq_refused :
    faultsAfter started (.caller 1) (.qenq .rx 0x48#8) = some [⟨.caller 1, 0x20#8, .illegalOp⟩]
      ∧ answer { portBench with qvalid := false } (.caller 1) (.qenq .rx 1#8) = some (.qres .fail) := by
  exact ⟨by decide, by decide⟩

/-- The example of rule R132; Q2. -/
theorem test_qdeq :
    answer { portBench with txq := ring [0x48#8, 0x69#8] } (.caller 1) (.qdeq .tx) = some (.qbyte 0x48#8)
      ∧ (after { portBench with txq := ring [0x48#8, 0x69#8] } (.caller 1) (.qdeq .tx)).map (·.txq.items 256)
        = some [0x69#8]
      ∧ answer portBench (.caller 1) (.qdeq .rx) = some (.qres .empty) := by
  exact ⟨by decide, by decide, by decide⟩

/-- Q4, Q1. -/
theorem test_qfull :
    answer { portBench with rxq := fullRing } (.caller 1) (.qfull .rx) = some (.flag true)
      ∧ answer { portBench with rxq := fullRing } (.caller 1) (.qfull .tx) = some (.flag false) := by
  exact ⟨by decide, by decide⟩

/-- Q1, Q3, Q11. -/
theorem test_qempty :
    answer portBench (.caller 1) (.qempty .rx) = some (.flag true)
      ∧ answer { portBench with rxq := ring [0x48#8] } (.caller 1) (.qempty .rx) = some (.flag false)
      ∧ answer { portBench with qvalid := false } (.caller 1) (.qempty .rx) = some (.flag true) := by
  exact ⟨by decide, by decide, by decide⟩

/-- Q4, Q8, Q12. -/
theorem test_qlen :
    answer { portBench with rxq := fullRing } (.caller 1) (.qlen .rx) = some (.count 256#32)
      ∧ answer { portBench with txq := ring [0x69#8] } (.caller 1) (.qlen .tx) = some (.count 1#32)
      ∧ faultsAfter { portBench with
          qvalid := false
          cfg := { portBench.cfg with stoppedQueuePolicy := .fault } } (.caller 1) (.qlen .tx)
        = some [⟨.caller 1, 0x2C#8, .queueInvalid⟩] := by
  exact ⟨by decide, by decide, by decide⟩

/-! ### The driver (95_test_vectors.md section 4) -/

/-- D2. -/
theorem test_start :
    answer { bench with store := [(0, 0x07#8)] } (.caller 1) (.start) = some (.dres .ok)
      ∧ (after { bench with store := [(0, 0x07#8)] } (.caller 1) .start).map
          (fun t => (t.status, t.gie, t.lifecycle, t.qvalid, t.rxq.count, t.bytesReceived))
        = some (0xE007#16, true, .started, true, 0, 0#32) := by
  exact ⟨by decide, by decide⟩

/-- D3, D20. -/
theorem test_start_refused_or_failed :
    faultsAfter started (.caller 1) .start = some [⟨.caller 1, 0x30#8, .doubleStart⟩]
      ∧ step { bench with
          cfg := { benchCfg with startMayFail := true }
          schedule := [.issue (.caller 1) [0x30#8] [1, 0, 0]] }
        = .next { bench with
            cfg := { benchCfg with startMayFail := true }
            picks := [1, 0, 0]
            responses := [(.caller 1, .dres .initializationFailure)] } := by
  exact ⟨by decide, rfl⟩

/-- D5. -/
theorem test_stop :
    (after { started with store := [(0, 0x03#8), (1, 0xE0#8)] } (.caller 1) .stop).map
          (fun t => (t.status, t.gie, t.qvalid, t.lifecycle, t.faults))
        = some (0x0003#16, false, false, .stopped, []) := by decide

/-- D4, D19. -/
theorem test_stop_refused :
    faultsAfter bench (.caller 1) .stop = some [⟨.caller 1, 0x31#8, .stopNotStarted⟩]
      ∧ (after { started with callers := [(1, .readb 1 [])] } (.caller 2) .stop).map
          (fun t => ((t.status, t.gie, t.qvalid, t.lifecycle), t.callers, t.faults))
        = some ((0x0000#16, false, true, .stopping), [(1, .readb 1 [])], [⟨.caller 2, 0x31#8, .destroyInUse⟩]) := by
  exact ⟨by decide, by decide⟩

/-- D12, D7, D8. -/
theorem test_writeb :
    (after started (.caller 1) (.writeb 2#32 [0x48#8, 0x69#8])).map (fun t => (t.txq.items 256, t.callers))
        = some ([0x48#8, 0x69#8], [])
      ∧ answer bench (.caller 1) (.writeb 1#32 [0x41#8]) = some (.dres .transmitFailure)
      ∧ answer bench (.caller 1) (.writeb 0#32 []) = some (.dres .ok) := by
  exact ⟨by decide, by decide, by decide⟩

/-- D14: a full TXQ keeps the call in flight. -/
theorem test_writeb_waits :
    (after { started with txq := fullRing } (.caller 1) (.writeb 1#32 [0xFF#8])).map (fun t => (t.callers, t.responses))
        = some ([(1, .writeb [0xFF#8] 0)], []) := by decide

/-- D15, D9. -/
theorem test_readb :
    (after { started with rxq := ring [0x48#8, 0x69#8, 0x21#8] } (.caller 1) (.readb 2#32)).map
          (fun t => (t.rxq.items 256, t.responses))
        = some ([0x21#8], [(.caller 1, .rbytes [0x48#8, 0x69#8])])
      ∧ answer bench (.caller 1) (.readb 1#32) = some (.dres .receiveFailure)
      ∧ answer bench (.caller 1) (.readb 0#32) = some (.rbytes []) := by
  exact ⟨by decide, by decide, by decide⟩

/-- D16, D10. -/
theorem test_readnb :
    answer { started with rxq := ring [0x48#8, 0x69#8] } (.caller 1) (.readnb 5#32) = some (.rpartial [0x48#8, 0x69#8] 2#32)
      ∧ answer started (.caller 1) (.readnb 5#32) = some (.rpartial [] 0#32)
      ∧ answer bench (.caller 1) (.readnb 3#32) = some (.dres .receiveFailure)
      ∧ answer bench (.caller 1) (.readnb 0#32) = some (.rpartial [] 0#32) := by
  exact ⟨by decide, by decide, by decide, by decide⟩

/-- D15, D11. -/
theorem test_rxlen :
    answer { started with rxq := ring [0x21#8] } (.caller 1) (.rxlen) = some (.count 1#32)
      ∧ answer { bench with rxq := ring [0x21#8] } (.caller 1) (.rxlen) = some (.count 0#32) := by
  exact ⟨by decide, by decide⟩

/-- D13. -/
theorem test_txlen :
    answer { started with txq := fullRing } (.caller 1) (.txlen) = some (.count 256#32)
      ∧ answer started (.caller 1) (.txlen) = some (.count 0#32) := by
  exact ⟨by decide, by decide⟩

/-- D17: kept after STOP. -/
theorem test_totalrx :
    answer { bench with bytesReceived := 3#32 } (.caller 1) (.totalrx) = some (.total 3#32) := by decide

/-- D17: kept after STOP. -/
theorem test_rxerr :
    answer { bench with receiveError := true } (.caller 1) (.rxerr) = some (.flag true)
      ∧ (after { bench with receiveError := true } (.caller 1) .rxerr).map (·.receiveError) = some true := by
  exact ⟨by decide, by decide⟩

/-- D11; the flag is its own. -/
theorem test_txerr :
    answer { bench with receiveError := true } (.caller 1) (.txerr) = some (.flag false)
      ∧ answer { bench with transmitError := true } (.caller 1) (.txerr) = some (.flag true) := by
  exact ⟨by decide, by decide⟩

/-! ### SERVICE (95_test_vectors.md section 5) -/

/-- S1, S4, S6, S8, S9, S11, S12, S13, S15. -/
theorem test_service :
    serviced (serviceBench 0x00#8 0xE0#8) = some ⟨[], [0x41#8, 0x42#8], 0x0055#16, 0#32, false, false⟩
      ∧ serviced (serviceBench 0x03#8 0xE0#8) = some ⟨[0x55#8], [0x42#8], 0x0041#16, 1#32, false, false⟩
      ∧ serviced (serviceBench 0x05#8 0xE0#8) = some ⟨[], [0x41#8, 0x42#8], 0x0055#16, 1#32, true, false⟩
      ∧ serviced (serviceBench 0x07#8 0xE0#8) = some ⟨[], [0x42#8], 0x0041#16, 1#32, true, false⟩
      ∧ serviced (serviceBench 0x01#8 0xA0#8) = some ⟨[], [0x41#8, 0x42#8], 0x0055#16, 0#32, false, false⟩
      ∧ serviced (serviceBench 0x03#8 0xC0#8) = some ⟨[0x55#8], [0x41#8, 0x42#8], 0x0055#16, 1#32, false, false⟩
      ∧ serviced (serviceBench 0x03#8 0x60#8) = some ⟨[0x55#8], [0x42#8], 0x0041#16, 1#32, false, false⟩
      ∧ serviced (serviceBench 0x04#8 0x00#8) = some ⟨[], [0x41#8, 0x42#8], 0x0055#16, 1#32, true, false⟩
      ∧ serviced (serviceBench 0xFF#8 0xFF#8) = some ⟨[], [0x42#8], 0x0041#16, 1#32, true, false⟩ := by
  exact ⟨by decide, by decide, by decide, by decide, by decide, by decide, by decide, by decide, by decide⟩

/-- V1, V2, V5, V7, V8, V9. -/
theorem test_service_corners :
    (after { started with
          store := [(0, 0x01#8), (1, 0xE0#8), (2, 0x55#8)]
          rxq := fullRing
          bytesReceived := 7#32 } .isr .service).map (fun t => (t.rxq, t.bytesReceived, t.receiveError))
        = some (fullRing, 8#32, true)
      ∧ serviced { started with store := [(0, 0x02#8), (1, 0xE0#8), (2, 0x55#8)] }
        = some ⟨[], [], 0x0055#16, 0#32, false, false⟩
      ∧ serviced { bench with store := [(0, 0x07#8)] } = some ⟨[], [], 0x0000#16, 0#32, false, false⟩
      ∧ serviced { bench with
          store := [(0, 0x03#8), (1, 0x60#8), (2, 0x55#8)]
          cfg := { benchCfg with gatedService := .run } } = some ⟨[], [], 0x0055#16, 1#32, true, true⟩
      ∧ faultsAfter { bench with
          store := [(0, 0x07#8)]
          cfg := { benchCfg with gatedService := .fault } } .isr .service = some [⟨.isr, 0x40#8, .gatedService⟩]
      ∧ (after { started with
          store := [(0, 0x04#8), (1, 0xE0#8)]
          bytesReceived := 0xFFFFFFFF#32 } .isr .service).map (fun t => (t.bytesReceived, t.receiveError))
        = some (0#32, true) := by
  exact ⟨by decide, by decide, by decide, by decide, by decide, by decide⟩

/-- V10 (a) and (b): after the byte step of the snapshot that reads `store[0]`, resp. `store[1]`, and L setting bit 0. -/
theorem test_service_torn_snapshot :
    microStep .isr 0 { started with
        store := [(0, 0x01#8), (1, 0xE0#8), (2, 0x48#8)]
        isr := some (.snapshot [(0, 0x00#8)]) }
      = { started with
          store := [(0, 0x01#8), (1, 0xE0#8), (2, 0x48#8)]
          responses := [(.isr, .ack)] }
    ∧ microStep .isr 0 { started with
        store := [(0, 0x01#8), (1, 0xE0#8), (2, 0x48#8)]
        isr := some (.snapshot [(1, 0xE0#8)]) }
      = { started with
          store := [(0, 0x01#8), (1, 0xE0#8), (2, 0x48#8)]
          isr := some (.readData 0xE001#16) } := by
  exact ⟨by decide, by decide⟩

/-- I1 to I11. -/
theorem test_irq :
    { started with store := Memory.write (Memory.write [] 0 0x07#8) 1 0xE0#8, gie := false }.irq = false
      ∧ { started with store := Memory.write (Memory.write [] 0 0x00#8) 1 0xE0#8, gie := true }.irq = false
      ∧ { started with store := Memory.write (Memory.write [] 0 0x01#8) 1 0xE0#8, gie := true }.irq = true
      ∧ { started with store := Memory.write (Memory.write [] 0 0x02#8) 1 0xE0#8, gie := true }.irq = true
      ∧ { started with store := Memory.write (Memory.write [] 0 0x04#8) 1 0xE0#8, gie := true }.irq = true
      ∧ { started with store := Memory.write (Memory.write [] 0 0x07#8) 1 0x60#8, gie := true }.irq = false
      ∧ { started with store := Memory.write (Memory.write [] 0 0x04#8) 1 0x80#8, gie := true }.irq = true
      ∧ { started with store := Memory.write (Memory.write [] 0 0x03#8) 1 0x80#8, gie := true }.irq = false
      ∧ { started with store := Memory.write (Memory.write [] 0 0x01#8) 1 0xA0#8, gie := true }.irq = false
      ∧ { started with store := Memory.write (Memory.write [] 0 0x02#8) 1 0xA0#8, gie := true }.irq = true
      ∧ { started with store := Memory.write (Memory.write [] 0 0x01#8) 1 0xC0#8, gie := true }.irq = true := by
  exact ⟨by decide, by decide, by decide, by decide, by decide, by decide, by decide, by decide, by decide, by decide, by decide⟩

/-! ### The line side (95_test_vectors.md section 6) -/

/-- L1, L2, L3, L4. -/
theorem test_lflags :
    registersAfter started .line (.lflags 0b111#3 0b011#3) = some (0xE003#16, 0x0000#16)
      ∧ registersAfter regs .line (.lflags 0b001#3 0b000#3) = some (0xE002#16, 0x0048#16)
      ∧ registersAfter regs .line (.lflags 0b000#3 0b111#3) = some (0xE003#16, 0x0048#16)
      ∧ registersAfter started .line (.lflags 0b100#3 0b111#3) = some (0xE004#16, 0x0000#16) := by
  exact ⟨by decide, by decide, by decide, by decide⟩

/-- L5. -/
theorem test_lrxdata :
    registersAfter { started with store := [(1, 0xE0#8), (2, 0x41#8)] } .line (.lrxdata 0x48#8) = some (0xE000#16, 0x0048#16) := by decide

/-- L6. -/
theorem test_lpeek :
    answer regs .line (.lpeek 0#2) = some (.lbyte 0x03#8)
      ∧ answer regs .line (.lpeek 1#2) = some (.lbyte 0xE0#8)
      ∧ answer regs .line (.lpeek 2#2) = some (.lbyte 0x48#8)
      ∧ answer regs .line (.lpeek 3#2) = some (.lbyte 0x00#8) := by
  exact ⟨by decide, by decide, by decide, by decide⟩

/-- L7 to L10. -/
theorem test_lpoke :
    registersAfter bench .line (.lpoke 1#2 0x1F#8) = some (0x1F00#16, 0x0000#16)
      ∧ registersAfter regs .line (.lpoke 3#2 0xFF#8) = some (0xE003#16, 0x0048#16)
      ∧ registersAfter regs .line (.lpoke 0#2 0xF8#8) = some (0xE0F8#16, 0x0048#16)
      ∧ registersAfter started .line (.lpoke 1#2 0x00#8) = some (0x0000#16, 0x0000#16) := by
  exact ⟨by decide, by decide, by decide, by decide⟩

/-! ### Illegal requests (95_test_vectors.md sections 7 and 8) -/

/-- X5, X10, X11, X14. -/
theorem test_illegal_class :
    faultsAfter bench (.caller 1) (.qlen .tx) = some [⟨.caller 1, 0x2C#8, .illegalOp⟩]
      ∧ faultsAfter bench (.caller 1) .service = some [⟨.caller 1, 0x40#8, .illegalOp⟩]
      ∧ faultsAfter bench .isr (.rd8 0#32) = some [⟨.isr, 0x10#8, .illegalOp⟩]
      ∧ faultsAfter bench .line .start = some [⟨.line, 0x30#8, .illegalOp⟩] := by
  exact ⟨by decide, by decide, by decide, by decide⟩

/-- F1: an ISR issuing 0x13. -/
theorem test_illegal_byte :
    step { bench with schedule := [.issue .isr [0x13#8] []] }
      = .next { bench with active := .isr, faults := [⟨.isr, 0x13#8, .illegalOp⟩] } := by rfl

/-! ### Witnesses: for every obligation with hypotheses, states and operands that meet them, one per clause -/

/-- The state with this agent's turn latched and these micro-steps granted. -/
def act (s : State) (a : Agent) (ps : List Nat) : State := { s with active := a, picks := ps }

/-- `n` micro-steps that take the lowest lane first. -/
def grant (n : Nat) : List Nat := List.replicate n 0

/-- The bench with this turn next. -/
def withTurn (s : State) (t : Turn) : State := { s with schedule := [t] }

theorem witness_DecodeOfEncodeIsTheRequest :
    (Instr.writeb 2#32 [0x48#8, 0x69#8]).wellFormed = true ∧ (Instr.lpoke 3#2 0xFF#8).wellFormed = true := by decide

theorem witness_DecodedBytesAreTheEncoding :
    decode [0x53#8, 0x03#8, 0xFF#8, 0x40#8] = .ok (.lpoke 3#2 0xFF#8, [0x40#8])
      ∧ decode [0x32#8, 0x01#8, 0x00#8, 0x00#8, 0x00#8, 0x41#8] = .ok (.writeb 1#32 [0x41#8], []) := by decide

theorem witness_StepRunsTheDecodedRequest :
    (withTurn bench (.issue .isr [0x40#8] [0, 1])).schedule = .issue .isr [0x40#8] [0, 1] :: []
      ∧ decodeRequest [0x40#8] = .ok .service := ⟨rfl, by decide⟩

theorem witness_StepAdvancesTheAgent :
    (withTurn started (.advance .isr (1 :: [0]))).schedule = .advance .isr (1 :: [0]) :: []
      ∧ (withTurn started (.advance .line [])).schedule = .advance .line [] :: []
      ∧ started.schedule = [] := ⟨rfl, rfl, rfl⟩

/-- An illegal byte (width code 11), a class that is another agent's, and the queue port of this hardware. -/
theorem witness_IllegalRequestRecordsFaultOnly :
    bench.agentExists (.caller 2) = true ∧ bench.agentIdle (.caller 2) = true
      ∧ legalOpcode 0x13#8 = false
      ∧ legalOpcode 0x40#8 = true ∧ permitted bench.cfg (.caller 2) 0x40#8 = false
      ∧ legalOpcode 0x2C#8 = true ∧ permitted bench.cfg (.caller 2) 0x2C#8 = false := by decide

theorem witness_ForbiddenClassRecordsFaultOnly :
    (act bench (.caller 1) []).activeReady = true
      ∧ permitted bench.cfg (.caller 1) (Instr.qlen .tx).opcode = false
      ∧ permitted bench.cfg (.caller 1) Instr.service.opcode = false := by decide

/-- The caller after the last one; a caller whose READB waits. -/
theorem witness_RequestOfAbsentOrBusyAgentStops :
    (act bench (.caller 3) []).agentExists (act bench (.caller 3) []).active = false
      ∧ (act bench (.caller 0) []).agentExists (act bench (.caller 0) []).active = false
      ∧ (act { started with callers := [(2, .readb 1 [])] } (.caller 2) []).agentExists (.caller 2) = true
      ∧ (act { started with callers := [(2, .readb 1 [])] } (.caller 2) []).agentIdle (.caller 2) = false := by decide

theorem witness_BusReadsReturnMemoryAndChangeNothing :
    (act regs (.caller 2) (grant 4)).admits 0x10#8 = true
      ∧ (act regs (.caller 2) (grant 2)).admits 0x11#8 = true ∧ 2 ≤ (act regs (.caller 2) (grant 2)).picks.length
      ∧ (act regs (.caller 2) (grant 4)).admits 0x12#8 = true
      ∧ 4 ≤ (act regs (.caller 2) (grant 4)).picks.length := by decide

theorem witness_BusWritesStoreTheirLanesOnly :
    (act regs (.caller 1) []).admits 0x18#8 = true
      ∧ (act regs (.caller 1) [1, 0]).admits 0x19#8 = true ∧ 2 ≤ (act regs (.caller 1) [1, 0]).picks.length
      ∧ (act regs (.caller 1) [3, 1, 0, 0]).admits 0x1A#8 = true
      ∧ 4 ≤ (act regs (.caller 1) [3, 1, 0, 0]).picks.length := by decide

theorem witness_HalfWordWritesOfTheRegisters :
    (act regs (.caller 1) [1, 0]).admits 0x19#8 = true ∧ 2 ≤ (act regs (.caller 1) [1, 0]).picks.length := by decide

/-- The byte after the window, the byte two and the word four bytes before its first one. -/
theorem witness_OutsideTheWindowReadsZeroAndIgnoresWrites :
    4 ≤ busOffset regs.cfg 0x1004#32
      ∧ (∀ k, k < 1 → 4 ≤ busOffset regs.cfg (byteAddr 0x1004#32 k))
      ∧ (∀ k, k < 2 → 4 ≤ busOffset regs.cfg (byteAddr 0x0FFE#32 k))
      ∧ (∀ k, k < 4 → 4 ≤ busOffset regs.cfg (byteAddr 0x0FFC#32 k))
      ∧ 4 ≤ (act regs (.caller 1) (grant 4)).picks.length
      ∧ [0x10#8, 0x18#8, 0x11#8, 0x19#8, 0x12#8, 0x1A#8].all (fun op => (act regs (.caller 1) (grant 4)).admits op)
        = true := by decide

/-- The high byte first, and the low byte first. -/
theorem witness_HalfWordReadMayTear :
    (act regs (.caller 1) [1]).active = .caller 1 ∧ (act regs (.caller 1) [1]).admits 0x11#8 = true
      ∧ (act regs (.caller 1) [1]).picks = [1]
      ∧ (act regs (.caller 1) [0]).admits 0x11#8 = true ∧ (act regs (.caller 1) [0]).picks = [0]
      ∧ ({ bench with callers := [(1, .busRead 0x1000#32 2 [(1, byteRead (byteAddr 0x1000#32 1) regs)])] } : State).callerOp 1
        = some (.busRead 0x1000#32 2 [(1, byteRead (byteAddr 0x1000#32 1) regs)]) := by decide

/-- The port bench with its queues unallocated, under either policy. -/
def unallocated (p : StoppedQueuePolicy) : State :=
  { portBench with qvalid := false, cfg := { portBench.cfg with stoppedQueuePolicy := p } }

/-- Full, one below full, unallocated under each policy. -/
theorem witness_EnqueueRequests :
    (act { portBench with rxq := fullRing } (.caller 1) []).admits (0x20#8 ||| 0#8) = true
      ∧ portBench.qvalid = true ∧ fullRing.count = portBench.cfg.qcap
      ∧ (act { portBench with txq := { fullRing with rear := 255, count := 255 } } (.caller 1) []).admits
          (0x20#8 ||| 8#8) = true
      ∧ { fullRing with rear := 255, count := 255 }.count ≠ portBench.cfg.qcap
      ∧ (act (unallocated .fail) (.caller 1) []).admits (0x20#8 ||| 0#8) = true
      ∧ (unallocated .fail).qvalid = false ∧ (unallocated .fail).cfg.stoppedQueuePolicy = .fail
      ∧ (act (unallocated .fault) (.caller 1) []).admits (0x20#8 ||| 8#8) = true
      ∧ (unallocated .fault).qvalid = false ∧ (unallocated .fault).cfg.stoppedQueuePolicy = .fault := by decide

/-- Empty, one byte, unallocated under each policy. -/
theorem witness_DequeueRequests :
    (act portBench (.caller 1) []).admits (0x21#8 ||| 0#8) = true
      ∧ portBench.qvalid = true ∧ (portBench.queue .rx).count = 0
      ∧ (act { portBench with txq := ring [0x41#8] } (.caller 1) []).admits (0x21#8 ||| 8#8) = true
      ∧ (({ portBench with txq := ring [0x41#8] } : State).queue .tx).count ≠ 0
      ∧ (act (unallocated .fail) (.caller 1) []).admits (0x21#8 ||| 0#8) = true
      ∧ (unallocated .fail).qvalid = false ∧ (unallocated .fail).cfg.stoppedQueuePolicy = .fail
      ∧ (act (unallocated .fault) (.caller 1) []).admits (0x21#8 ||| 8#8) = true
      ∧ (unallocated .fault).qvalid = false ∧ (unallocated .fault).cfg.stoppedQueuePolicy = .fault := by decide

theorem witness_QueueQueries :
    [Instr.qfull .rx, .qfull .tx, .qempty .rx, .qempty .tx, .qlen .rx, .qlen .tx].all
        (fun i => (act portBench (.caller 2) []).admits i.opcode
          && (act (unallocated .fail) (.caller 2) []).admits i.opcode
          && (act (unallocated .fault) (.caller 2) []).admits i.opcode) = true
      ∧ portBench.qvalid = true
      ∧ (unallocated .fail).qvalid = false ∧ (unallocated .fail).cfg.stoppedQueuePolicy = .fail
      ∧ (unallocated .fault).qvalid = false ∧ (unallocated .fault).cfg.stoppedQueuePolicy = .fault := by decide

/-- A capacity of 1, with a FULL and then an EMPTY among the steps (vector Q9). -/
theorem witness_QueueIsFirstInFirstOut :
    (1 ≤ ({ portBench with cfg := { portBench.cfg with qcap := 1 } } : State).cfg.qcap ∧ portBench.qvalid = true)
      ∧ enqAnswer .rx (QueueTrace.run .rx { portBench with cfg := { portBench.cfg with qcap := 1 } } [.enq 0x0A#8]).state
        ≠ .ok
      ∧ deqAnswer .rx (QueueTrace.run .rx { portBench with cfg := { portBench.cfg with qcap := 1 } }
          [.enq 0x0A#8, .enq 0x0B#8, .deq]).state ≠ .ok := by decide

theorem witness_StartOpensASession :
    (act bench (.caller 2) (grant 7)).admits 0x30#8 = true ∧ bench.lifecycle = .stopped
      ∧ bench.cfg.startMayFail = false ∧ 7 ≤ (act bench (.caller 2) (grant 7)).picks.length
      ∧ (act { bench with cfg := { benchCfg with startMayFail := true } } (.caller 1) (grant 7)).admits 0x30#8 = true
      ∧ (act { bench with cfg := { benchCfg with startMayFail := true } } (.caller 1) (grant 7)).picks.head? = some 0 := by
  decide

theorem witness_StartRefusedOrFailed :
    (act started (.caller 1) (grant 1)).admits 0x30#8 = true ∧ started.lifecycle ≠ .stopped
      ∧ 1 ≤ (act started (.caller 1) (grant 1)).picks.length
      ∧ (act { bench with cfg := { benchCfg with startMayFail := true } } (.caller 1) (1 :: [])).admits 0x30#8 = true
      ∧ bench.lifecycle = .stopped
      ∧ ∃ p ps, (act { bench with cfg := { benchCfg with startMayFail := true } } (.caller 1) (1 :: [])).picks = p :: ps
          ∧ p ≠ 0 := by
  exact ⟨by decide, by decide, by decide, by decide, by decide, 1, [], rfl, by decide⟩

/-- Another caller's bus access in flight is no use of a queue. -/
theorem witness_StopEndsTheSession :
    (act { started with callers := [(2, .busRead 0#32 2 [])] } (.caller 1) (grant 6)).active = .caller 1
      ∧ (act { started with callers := [(2, .busRead 0#32 2 [])] } (.caller 1) (grant 6)).admits 0x31#8 = true
      ∧ started.lifecycle = .started
      ∧ (act { started with callers := [(2, .busRead 0#32 2 [])] } (.caller 1) (grant 6)).inUse 1 = false
      ∧ 6 ≤ (grant 6).length := by decide

/-- Not started; and a STOP of A2 while A1's READB waits, or while a SERVICE is in progress. -/
theorem witness_StopRefusedOrInUse :
    (act bench (.caller 1) (grant 1)).active = .caller 1 ∧ (act bench (.caller 1) (grant 1)).admits 0x31#8 = true
      ∧ bench.lifecycle ≠ .started ∧ 1 ≤ (grant 1).length
      ∧ (act { started with callers := [(1, .readb 1 [])] } (.caller 2) (grant 6)).admits 0x31#8 = true
      ∧ (act { started with callers := [(1, .readb 1 [])] } (.caller 2) (grant 6)).inUse 2 = true
      ∧ (act { started with isr := some (.snapshot []) } (.caller 1) (grant 6)).admits 0x31#8 = true
      ∧ (act { started with isr := some (.snapshot []) } (.caller 1) (grant 6)).inUse 1 = true
      ∧ started.lifecycle = .started ∧ 6 ≤ (grant 6).length := by decide

/-- One byte into a queue with one free slot. -/
theorem witness_WriteAppendsToTheTransmitQueue :
    (Instr.writeb 1#32 [0xFF#8]).wellFormed = true
      ∧ (act { started with txq := { fullRing with rear := 255, count := 255 } } (.caller 1) (grant 1)).admits 0x32#8 = true
      ∧ started.qvalid = true
      ∧ Queue.wf started.cfg.qcap { fullRing with rear := 255, count := 255 } = true
      ∧ 255 + [0xFF#8].length ≤ started.cfg.qcap ∧ [0xFF#8].length ≤ (grant 1).length := by decide

/-- Two bytes into a queue with one free slot; one byte into a full one. -/
theorem witness_WriteWaitsOnAFullQueue :
    (Instr.writeb 2#32 [0xFE#8, 0xFF#8]).wellFormed = true
      ∧ (act { started with txq := { fullRing with rear := 255, count := 255 } } (.caller 1) (grant 1)).admits 0x32#8 = true
      ∧ started.qvalid = true
      ∧ Queue.wf started.cfg.qcap { fullRing with rear := 255, count := 255 } = true
      ∧ started.cfg.qcap < 255 + [0xFE#8, 0xFF#8].length ∧ started.cfg.qcap - 255 ≤ (grant 1).length
      ∧ (Instr.writeb 1#32 [0xFF#8]).wellFormed = true
      ∧ (act { started with txq := fullRing } (.caller 1) []).admits 0x32#8 = true
      ∧ Queue.wf started.cfg.qcap fullRing = true
      ∧ started.cfg.qcap < fullRing.count + [0xFF#8].length ∧ started.cfg.qcap - fullRing.count ≤ 0 := by decide

theorem witness_WriteOfNothingAndWriteFailure :
    (act started (.caller 1) []).admits 0x32#8 = true
      ∧ (act (unallocated .fail) (.caller 1) (grant 1)).admits 0x32#8 = true
      ∧ (unallocated .fail).qvalid = false ∧ (unallocated .fail).cfg.stoppedQueuePolicy = .fail
      ∧ (act (unallocated .fault) (.caller 1) (grant 1)).admits 0x32#8 = true
      ∧ (unallocated .fault).qvalid = false ∧ (unallocated .fault).cfg.stoppedQueuePolicy = .fault
      ∧ 1 ≤ (grant 1).length := by decide

/-- All the bytes there are. -/
theorem witness_BlockingReadTakesTheOldestBytes :
    (act { started with rxq := ring [0x48#8, 0x69#8] } (.caller 1) (grant 2)).admits 0x33#8 = true
      ∧ started.qvalid = true ∧ Queue.wf started.cfg.qcap (ring [0x48#8, 0x69#8]) = true
      ∧ (2#32).toNat ≤ (ring [0x48#8, 0x69#8]).count ∧ (2#32).toNat ≤ (grant 2).length := by decide

/-- One more than there are. -/
theorem witness_BlockingReadWaitsOnAnEmptyQueue :
    (act { started with rxq := ring [0x48#8, 0x69#8] } (.caller 1) (grant 2)).active = .caller 1
      ∧ (act { started with rxq := ring [0x48#8, 0x69#8] } (.caller 1) (grant 2)).admits 0x33#8 = true
      ∧ started.qvalid = true ∧ Queue.wf started.cfg.qcap (ring [0x48#8, 0x69#8]) = true
      ∧ (ring [0x48#8, 0x69#8]).count < (3#32).toNat ∧ (ring [0x48#8, 0x69#8]).count ≤ (grant 2).length := by decide

/-- One more than there are, and exactly what there is. -/
theorem witness_NonBlockingReadTakesWhatIsThere :
    (act { started with rxq := ring [0x48#8, 0x69#8] } (.caller 1) (grant 3)).admits 0x34#8 = true
      ∧ started.qvalid = true ∧ Queue.wf started.cfg.qcap (ring [0x48#8, 0x69#8]) = true
      ∧ min (3#32).toNat ((ring [0x48#8, 0x69#8]).count + 1) ≤ (grant 3).length
      ∧ min (2#32).toNat ((ring [0x48#8, 0x69#8]).count + 1) ≤ (grant 2).length := by decide

theorem witness_ReadOfNothingAndReadFailure :
    (act bench (.caller 1) []).admits 0x33#8 = true ∧ (act bench (.caller 1) []).admits 0x34#8 = true
      ∧ (act (unallocated .fail) (.caller 1) (grant 1)).admits 0x33#8 = true
      ∧ (act (unallocated .fail) (.caller 1) (grant 1)).admits 0x34#8 = true
      ∧ (unallocated .fail).qvalid = false ∧ (unallocated .fail).cfg.stoppedQueuePolicy = .fail
      ∧ (act (unallocated .fault) (.caller 1) (grant 1)).admits 0x33#8 = true
      ∧ (act (unallocated .fault) (.caller 1) (grant 1)).admits 0x34#8 = true
      ∧ (unallocated .fault).qvalid = false ∧ (unallocated .fault).cfg.stoppedQueuePolicy = .fault
      ∧ (1#32 : Word) ≠ 0#32 ∧ 1 ≤ (grant 1).length := by decide

theorem witness_QueueLengthQueries :
    (act started (.caller 1) []).admits 0x35#8 = true ∧ (act started (.caller 1) []).admits 0x36#8 = true
      ∧ started.qvalid = true
      ∧ (act (unallocated .fail) (.caller 1) []).admits 0x35#8 = true
      ∧ (act (unallocated .fail) (.caller 1) []).admits 0x36#8 = true
      ∧ (unallocated .fail).qvalid = false ∧ (unallocated .fail).cfg.stoppedQueuePolicy = .fail
      ∧ (act (unallocated .fault) (.caller 1) []).admits 0x35#8 = true
      ∧ (act (unallocated .fault) (.caller 1) []).admits 0x36#8 = true
      ∧ (unallocated .fault).qvalid = false ∧ (unallocated .fault).cfg.stoppedQueuePolicy = .fault := by decide

theorem witness_ScalarQueries :
    (act bench (.caller 2) []).admits 0x37#8 = true ∧ (act bench (.caller 2) []).admits 0x38#8 = true
      ∧ (act bench (.caller 2) []).admits 0x39#8 = true := by decide

/-- Gate open with the queues allocated; gate closed under RUN with the queues unallocated under FAIL. -/
theorem witness_ServiceMovesOneByteEachWay :
    ((act (serviceBench 0x03#8 0xE0#8) .isr (grant 10)).admits 0x40#8 = true
        ∧ (serviceBench 0x03#8 0xE0#8).gie = true ∧ (serviceBench 0x03#8 0xE0#8).qvalid = true
        ∧ 10 ≤ (grant 10).length)
      ∧ (act { bench with cfg := { benchCfg with gatedService := .run } } .isr (grant 10)).admits 0x40#8 = true
      ∧ ({ bench with cfg := { benchCfg with gatedService := .run } } : State).cfg.gatedService = .run
      ∧ bench.cfg.stoppedQueuePolicy = .fail := by decide

theorem witness_ServiceWithTheGateClosed :
    (act bench .isr []).admits 0x40#8 = true ∧ bench.gie = false ∧ bench.cfg.gatedService = .ignore
      ∧ (act { bench with cfg := { benchCfg with gatedService := .fault } } .isr []).admits 0x40#8 = true
      ∧ ({ bench with cfg := { benchCfg with gatedService := .fault } } : State).cfg.gatedService = .fault := by decide

/-- STOPPED under FAULT and RUN, with these STATUS bytes. -/
def faultingService (lo hi : Byte) : State :=
  act { bench with
    store := Memory.write (Memory.write [] 0 lo) 1 hi
    cfg := { benchCfg with stoppedQueuePolicy := .fault, gatedService := .run } } .isr (grant 10)

theorem witness_ServiceOnUnallocatedQueuesFaults :
    (faultingService 0x01#8 0x40#8).admits 0x40#8 = true ∧ (faultingService 0x01#8 0x40#8).cfg.gatedService = .run
      ∧ (faultingService 0x01#8 0x40#8).qvalid = false
      ∧ (faultingService 0x01#8 0x40#8).cfg.stoppedQueuePolicy = .fault
      ∧ 10 ≤ (faultingService 0x01#8 0x40#8).picks.length
      ∧ ((faultingService 0x01#8 0x40#8).status.getLsbD 2 = false
        ∧ (faultingService 0x01#8 0x40#8).status.getLsbD 0 = true
        ∧ (faultingService 0x01#8 0x40#8).status.getLsbD 14 = true)
      ∧ ((faultingService 0x06#8 0x20#8).status.getLsbD 2 = true
        ∧ (faultingService 0x06#8 0x20#8).status.getLsbD 1 = true
        ∧ (faultingService 0x06#8 0x20#8).status.getLsbD 13 = true)
      ∧ ((faultingService 0x03#8 0x20#8).status.getLsbD 2 = false
        ∧ (faultingService 0x03#8 0x20#8).status.getLsbD 14 = false
        ∧ (faultingService 0x03#8 0x20#8).status.getLsbD 1 = true
        ∧ (faultingService 0x03#8 0x20#8).status.getLsbD 13 = true)
      ∧ ((faultingService 0x02#8 0x60#8).status.getLsbD 2 = false
        ∧ (faultingService 0x02#8 0x60#8).status.getLsbD 0 = false
        ∧ (faultingService 0x02#8 0x60#8).status.getLsbD 1 = true
        ∧ (faultingService 0x02#8 0x60#8).status.getLsbD 13 = true) := by decide

theorem witness_ServiceNeverWritesStatus :
    ∃ t, exec .service (act (serviceBench 0x07#8 0xE0#8) .isr (grant 10)) = .next t := ⟨_, rfl⟩

/-- STATUS 0xE003 and 0x6003. -/
theorem witness_ServiceIgnoresInterruptEnable :
    (act (serviceBench 0x03#8 0xE0#8) .isr (grant 10)).admits 0x40#8 = true
      ∧ (serviceBench 0x03#8 0xE0#8).gie = true ∧ (serviceBench 0x03#8 0xE0#8).qvalid = true
      ∧ 10 ≤ (grant 10).length
      ∧ ((serviceBench 0x03#8 0xE0#8).store = [(0, 0x03#8), (1, 0xE0#8), (2, 0x55#8)]
        ∧ (∀ k, k ≠ 1 → Memory.read [(0, 0x03#8), (1, 0x60#8), (2, 0x55#8)] k
            = Memory.read [(0, 0x03#8), (1, 0xE0#8), (2, 0x55#8)] k)
        ∧ Memory.read [(0, 0x03#8), (1, 0x60#8), (2, 0x55#8)] 1
            = Memory.read [(0, 0x03#8), (1, 0xE0#8), (2, 0x55#8)] 1 ^^^ 0x80#8) := by
  refine ⟨by decide, by decide, by decide, by decide, by decide, ?_, by decide⟩
  intro k h
  simp [Memory.read, Table.find, Ne.symm h]

/-- Of LineFlagsDriveTheMaskedFlags, LineReceiveDataSetsTheDataByte and LinePeekAndPoke. -/
theorem witness_LineRequests :
    (act bench .line []).admits 0x50#8 = true ∧ (act bench .line []).admits 0x51#8 = true
      ∧ (act bench .line []).admits 0x52#8 = true ∧ (act bench .line []).admits 0x53#8 = true := by decide

/-- A state of the invariant with every agent in flight: the step goes on. -/
def busy : State :=
  { serviceBench 0x03#8 0xE0#8 with
    callers := [(1, .writeb [0x43#8] 0), (2, .start .s1)]
    isr := some (.readData 0xE003#16)
    schedule := [.advance .isr (grant 6)] }

theorem witness_EveryStepKeepsTheInvariant : busy.inv = true ∧ ∃ t, step busy = .next t :=
  ⟨by decide, next_of_goesOn (by decide)⟩

theorem witness_DataHighByteIsAlwaysZero : busy.store.read 3 = 0#8 ∧ ∃ t, step busy = .next t :=
  ⟨by decide, next_of_goesOn (by decide)⟩

/-- A turn of the ISR that sends a byte. -/
theorem witness_OnlyTheLineSideChangesReadOnlyStatusBits :
    busy.nextAgent ≠ some .line ∧ ∃ t, step busy = .next t :=
  ⟨by decide, next_of_goesOn (by decide)⟩

/-- A START past S1 with both flags set: its S2 clears them. -/
def clearing : State :=
  { started with
    receiveError := true
    transmitError := true
    lifecycle := .starting
    gie := false
    callers := [(1, .start .s2)]
    schedule := [.advance (.caller 1) [0]] }

theorem witness_StickyFlagsClearedOnlyByStart :
    (clearing.receiveError = true ∧ (microStep (.caller 1) 0 clearing).receiveError = false)
      ∧ (clearing.transmitError = true ∧ (microStep (.caller 1) 0 clearing).transmitError = false)
      ∧ (∃ t, step clearing = .next t ∧ clearing.receiveError = true ∧ t.receiveError = false)
      ∧ ∃ t, exec .rxerr (act bench (.caller 1) []) = .next t :=
  ⟨by decide, by decide, ⟨_, rfl, by decide, by decide⟩, ⟨_, rfl⟩⟩

theorem witness_OnlyServiceFlagsErrorsAndCounts :
    clearing.nextAgent ≠ some .isr ∧ bench.receiveError = false ∧ bench.transmitError = false
      ∧ ∃ t, step clearing = .next t :=
  ⟨by decide, by decide, by decide, next_of_goesOn (by decide)⟩

/-- A turn that records a fault, the second one. -/
theorem witness_FaultsStayAndATurnAddsAtMostOne :
    ∃ t, step { bench with
          faults := [⟨.isr, 0x13#8, .illegalOp⟩]
          schedule := [.issue (.caller 1) [0x31#8] [0]] } = .next t
      ∧ t.faults = [⟨.isr, 0x13#8, .illegalOp⟩] ++ [⟨.caller 1, 0x31#8, .stopNotStarted⟩] := ⟨_, rfl, by decide⟩

theorem witness_ATurnLeavesTheOtherAgentsInFlight :
    busy.nextAgent = some .isr ∧ (∃ t, step busy = .next t)
      ∧ clearing.nextAgent = some (.caller 1) ∧ ∃ t, step clearing = .next t :=
  ⟨by decide, next_of_goesOn (by decide), by decide, next_of_goesOn (by decide)⟩

theorem witness_ATurnMayBeSplitAnywhere :
    ∃ t, step { bench with schedule := .issue (.caller 1) [0x30#8] ([0, 0, 0] ++ [1, 0, 0, 0]) :: [] } = .next t :=
  next_of_goesOn (by decide)

theorem witness_ParametersNeverChange : ∃ t, step clearing = .next t := next_of_goesOn (by decide)

theorem witness_EveryRequestOfAReadyAgentGoesOn :
    (act bench (.caller 2) []).activeReady = true ∧ (act started .isr []).activeReady = true
      ∧ (act bench .line []).activeReady = true := by decide

/-! ### Ends of a run (70_reset_and_hazards.md rule R276) -/

theorem test_end_of_run :
    started.successfulEnd = true ∧ clearing.atRest = false
      ∧ { started with faults := [⟨.isr, 0x13#8, .illegalOp⟩] }.successfulEnd = false := by decide

end Sys2Proof.Tests
end

section
/-! What a turn can do to the register store, said once: byte lanes of software writes, or one write of the line side
(20_memory.md rules R54 and R67). DATA's upper byte follows from it (10_state.md rule R34). -/

namespace Sys2Proof.Machine

/-! ### Software writes of the store -/

/-- `m'` is `m` after one byte lane of a software write. Offset 0, which software cannot write, leaves the store. -/
def SoftwareWrite (m m' : Memory) : Prop := ∃ (o : Nat) (v : Byte), m' = writeStoreByte o v m

/-- `m'` is `m` after any number of byte lanes of software writes. -/
abbrev SoftwareWrites : Memory → Memory → Prop := Relation.ReflTransGen SoftwareWrite

theorem softwareWrite_of_eq {m m' : Memory} (h : m' = m) : SoftwareWrite m m' := ⟨0, 0#8, h⟩

theorem softwareWrites_of_eq {m m' : Memory} (h : m' = m) : SoftwareWrites m m' := h ▸ .refl

theorem softwareWrite_byteWrite (a : Addr) (v : Byte) (s : State) : SoftwareWrite s.store (byteWrite a v s).store :=
  ⟨_, v, rfl⟩

theorem softwareWrite_writeLane (a : Addr) (v : Word) (n : Nat) (lanes : Lanes) (pick : Nat) (s : State) :
    SoftwareWrite s.store (writeLane a v n lanes pick s).store :=
  softwareWrite_byteWrite _ _ s

theorem softwareWrites_memWrite (a : Addr) (n : Nat) (v : Word) (s : State) :
    SoftwareWrites s.store (memWrite a n v s).store := by
  unfold memWrite
  induction List.range n generalizing s with
  | nil => exact .refl
  | cons k ks ih => exact .head (softwareWrite_byteWrite _ _ s) (ih _)

/-! ### One micro-step -/

theorem stepBusRead_store (pick n : Nat) (a : Addr) (w : Nat) (lanes : Lanes) (s : State) :
    (stepBusRead pick n a w lanes s).store = s.store := by
  unfold stepBusRead
  split <;> simp

theorem softwareWrite_stepBusWrite (pick n : Nat) (a : Addr) (w : Nat) (v : Word) (lanes : Lanes) (s : State) :
    SoftwareWrite s.store (stepBusWrite pick n a w v lanes s).store := by
  unfold stepBusWrite
  split <;> simp [softwareWrite_writeLane]

theorem stepStart1_store (pick n : Nat) (s : State) : (stepStart1 pick n s).store = s.store := by
  unfold stepStart1
  split
  · split <;> simp
  · simp

theorem stepStart3Read_store (pick n : Nat) (lanes : Lanes) (s : State) :
    (stepStart3Read pick n lanes s).store = s.store := by
  unfold stepStart3Read
  split <;> simp

theorem softwareWrite_stepStart3Write (pick n : Nat) (r : Word) (lanes : Lanes) (s : State) :
    SoftwareWrite s.store (stepStart3Write pick n r lanes s).store := by
  unfold stepStart3Write
  split <;> simp [softwareWrite_writeLane]

theorem softwareWrite_stepStart (pick n : Nat) (next : StartStep) (s : State) :
    SoftwareWrite s.store (stepStart pick n next s).store := by
  cases next with
  | s1 => exact softwareWrite_of_eq (stepStart1_store pick n s)
  | s2 => exact softwareWrite_of_eq rfl
  | s3Read lanes => exact softwareWrite_of_eq (stepStart3Read_store pick n lanes s)
  | s3Write r lanes => exact softwareWrite_stepStart3Write pick n r lanes s
  | s4 => exact softwareWrite_of_eq rfl

theorem stepStop1_store (n : Nat) (s : State) : (stepStop1 n s).store = s.store := by
  unfold stepStop1
  split <;> simp

theorem stepStop2Read_store (pick n : Nat) (lanes : Lanes) (s : State) :
    (stepStop2Read pick n lanes s).store = s.store := by
  unfold stepStop2Read
  split <;> simp

theorem softwareWrite_stepStop2Write (pick n : Nat) (r : Word) (lanes : Lanes) (s : State) :
    SoftwareWrite s.store (stepStop2Write pick n r lanes s).store := by
  unfold stepStop2Write
  split <;> simp [softwareWrite_writeLane]

theorem stepStop3_store (n : Nat) (s : State) : (stepStop3 n s).store = s.store := by
  unfold stepStop3
  split <;> simp

theorem softwareWrite_stepStop (pick n : Nat) (next : StopStep) (s : State) :
    SoftwareWrite s.store (stepStop pick n next s).store := by
  cases next with
  | t1 => exact softwareWrite_of_eq (stepStop1_store n s)
  | t2Read lanes => exact softwareWrite_of_eq (stepStop2Read_store pick n lanes s)
  | t2Write r lanes => exact softwareWrite_stepStop2Write pick n r lanes s
  | t3 => exact softwareWrite_of_eq (stepStop3_store n s)

@[simp] theorem loopWriteb_store (n : Nat) (bytes : List Byte) (i : Nat) (s : State) :
    (loopWriteb n bytes i s).store = s.store := by
  unfold loopWriteb
  split <;> simp

@[simp] theorem loopReadb_store (n count : Nat) (out : List Byte) (s : State) :
    (loopReadb n count out s).store = s.store := by
  unfold loopReadb
  split <;> simp

@[simp] theorem loopReadnb_store (n count : Nat) (out : List Byte) (s : State) :
    (loopReadnb n count out s).store = s.store := by
  unfold loopReadnb
  split <;> simp

theorem stepWriteb_store (n : Nat) (bytes : List Byte) (i : Nat) (s : State) :
    (stepWriteb n bytes i s).store = s.store := by
  unfold stepWriteb
  split
  · simp
  · split <;> simp

theorem stepReadb_store (n count : Nat) (out : List Byte) (s : State) :
    (stepReadb n count out s).store = s.store := by
  unfold stepReadb
  split
  · simp
  · split <;> simp

theorem stepReadnb_store (n count : Nat) (out : List Byte) (s : State) :
    (stepReadnb n count out s).store = s.store := by
  unfold stepReadnb
  split
  · simp
  · split <;> simp

theorem softwareWrite_stepCaller (pick n : Nat) (op : CallerOp) (s : State) :
    SoftwareWrite s.store (stepCaller pick n op s).store := by
  cases op with
  | busRead a w lanes => exact softwareWrite_of_eq (stepBusRead_store pick n a w lanes s)
  | busWrite a w v lanes => exact softwareWrite_stepBusWrite pick n a w v lanes s
  | start next => exact softwareWrite_stepStart pick n next s
  | stop next => exact softwareWrite_stepStop pick n next s
  | writeb bytes i => exact softwareWrite_of_eq (stepWriteb_store n bytes i s)
  | readb count out => exact softwareWrite_of_eq (stepReadb_store n count out s)
  | readnb count out => exact softwareWrite_of_eq (stepReadnb_store n count out s)

@[simp] theorem serviceGoto_store (p : Option ServicePhase) (s : State) : (serviceGoto p s).store = s.store := by
  cases p <;> rfl

theorem stepSnapshot_store (pick : Nat) (lanes : Lanes) (s : State) :
    (stepSnapshot pick lanes s).store = s.store := by
  unfold stepSnapshot
  split <;> simp

theorem stepTestFull_store (v : Half) (b : Byte) (s : State) : (stepTestFull v b s).store = s.store := by
  unfold stepTestFull
  split
  · simp
  · split <;> simp

theorem stepEnqueue_store (v : Half) (b : Byte) (s : State) : (stepEnqueue v b s).store = s.store := by
  unfold stepEnqueue
  split
  · simp
  · split <;> simp

theorem stepDequeue_store (v : Half) (s : State) : (stepDequeue v s).store = s.store := by
  unfold stepDequeue
  split
  · simp
  · split <;> simp

theorem softwareWrite_stepSend (pick : Nat) (v : Half) (t : Byte) (lanes : Lanes) (s : State) :
    SoftwareWrite s.store (stepSend pick v t lanes s).store := by
  unfold stepSend
  split <;> simp [softwareWrite_writeLane]

theorem softwareWrite_stepService (pick : Nat) (p : ServicePhase) (s : State) :
    SoftwareWrite s.store (stepService pick p s).store := by
  cases p with
  | snapshot lanes => exact softwareWrite_of_eq (stepSnapshot_store pick lanes s)
  | markError v => exact softwareWrite_of_eq (by simp [stepService])
  | readData v => exact softwareWrite_of_eq rfl
  | countByte v b => exact softwareWrite_of_eq rfl
  | testFull v b => exact softwareWrite_of_eq (stepTestFull_store v b s)
  | dropByte v b => exact softwareWrite_of_eq (by simp [stepService])
  | enqueue v b => exact softwareWrite_of_eq (stepEnqueue_store v b s)
  | enqueueFailed v b => exact softwareWrite_of_eq (by simp [stepService])
  | dequeue v => exact softwareWrite_of_eq (stepDequeue_store v s)
  | send v t lanes => exact softwareWrite_stepSend pick v t lanes s
  | dequeueFailed v => exact softwareWrite_of_eq rfl

/-- A micro-step of any agent does at most one byte lane of a software write to the store. -/
theorem softwareWrite_microStep (a : Agent) (pick : Nat) (s : State) :
    SoftwareWrite s.store (microStep a pick s).store := by
  cases a with
  | caller n =>
    cases hop : s.callerOp n with
    | some op => simpa only [microStep, hop] using softwareWrite_stepCaller pick n op s
    | none => exact softwareWrite_of_eq (by simp only [microStep, hop])
  | isr =>
    cases hp : s.isr with
    | some p => simpa only [microStep, hp] using softwareWrite_stepService pick p s
    | none => exact softwareWrite_of_eq (by simp only [microStep, hp])
  | line => exact softwareWrite_of_eq rfl

/-! ### The turn of a request -/

theorem softwareWrites_runTurn (s : State) : SoftwareWrites s.store (runTurn s).store :=
  runAgent_keeps (fun t => SoftwareWrites s.store t.store) s.active
    (fun p t h => h.tail (softwareWrite_microStep s.active p t)) s.picks s .refl

theorem softwareWrites_launch (op : CallerOp) (s : State) : SoftwareWrites s.store (launch op s).store :=
  launch_keeps (fun t => SoftwareWrites s.store t.store) op s (fun _ => .refl) .refl
    (fun a p t h => h.tail (softwareWrite_microStep a p t))

theorem softwareWrites_enterLoop (loop : Nat → State → State) (hloop : ∀ n s, (loop n s).store = s.store) (s : State) :
    SoftwareWrites s.store (enterLoop loop s).store := by
  unfold enterLoop
  split
  · next n _ => exact hloop n s ▸ softwareWrites_runTurn (loop n s)
  · exact .refl
  · exact .refl

theorem softwareWrites_answer (r : State → Response) (s : State) :
    SoftwareWrites s.store (s.answer s.active (r s)).store :=
  softwareWrites_of_eq (answer_store s.active (r s) s)

theorem softwareWrites_queueRequest (op : Byte) (act : State → State) (hact : ∀ s, (act s).store = s.store)
    (s : State) : SoftwareWrites s.store (queueRequest op act s).store := by
  unfold queueRequest
  split
  · exact softwareWrites_of_eq (raiseFault_store _ _ _ s)
  · exact softwareWrites_of_eq (hact s)

theorem softwareWrites_enterService (s : State) : SoftwareWrites s.store (enterService s).store :=
  softwareWrites_runTurn (s.setIsr (.snapshot []))

theorem softwareWrites_gatedService (s : State) : SoftwareWrites s.store (gatedService s).store := by
  unfold gatedService
  split
  · exact .refl
  · exact softwareWrites_enterService s
  · exact .refl

/-- The agent of an admitted FL request is the line side (rule R82). -/
theorem line_of_admits (op : Byte) (s : State) (h : s.admits op = true) (ho : 0x50 ≤ op.toNat) : s.active = .line := by
  simp only [State.admits, Bool.and_eq_true] at h
  obtain ⟨-, hp⟩ := h
  cases ha : s.active with
  | caller n => simp [permitted, ha] at hp; omega
  | isr => simp [permitted, ha] at hp; omega
  | line => rfl

theorem rejectIllegal_store (op : Byte) (s : State) : (rejectIllegal op s).store = s.store :=
  raiseFault_store _ _ _ s

/-- A request that does software writes only: admitted or rejected, it does software writes only. -/
theorem softwareWrites_of_accept {op : Byte} {run : State → State} {s t : State}
    (h : accept op s run = .next t) (hrun : ∀ s, SoftwareWrites s.store (run s).store) :
    SoftwareWrites s.store t.store := by
  obtain ⟨-, rfl | rfl⟩ := accept_next op s t run h
  · exact hrun s
  · exact softwareWrites_of_eq (rejectIllegal_store op s)

/-- A line-side request that does one line write: it is rejected and leaves the store, or the line side writes. -/
theorem lineWrite_of_accept {op : Byte} {run : State → State} {s t : State} (h : accept op s run = .next t)
    (ho : 0x50 ≤ op.toNat) (k : BitVec 2) (v : Byte) (hrun : (run s).store = (lineWrite k v s).store) :
    SoftwareWrites s.store t.store ∨ s.active = .line ∧ ∃ k v, t.store = (lineWrite k v s).store := by
  rcases accept_cases op s run with ⟨ha, he⟩ | ⟨-, -, he⟩ | ⟨-, f, he⟩
  · obtain rfl : run s = t := by simpa [he] using h
    exact .inr ⟨line_of_admits op s ha ho, k, v, hrun⟩
  · obtain rfl : rejectIllegal op s = t := by simpa [he] using h
    exact .inl (softwareWrites_of_eq (rejectIllegal_store op s))
  · simp [he] at h

/-- A request does byte lanes of software writes to the store, or it is the line side's and does one line write. -/
theorem exec_store (i : Instr) (s t : State) (h : exec i s = .next t) :
    SoftwareWrites s.store t.store ∨ s.active = .line ∧ ∃ k v, t.store = (lineWrite k v s).store := by
  cases i with dsimp only [exec] at h
  | rd8 a => exact .inl (softwareWrites_of_accept h (softwareWrites_answer _))
  | rd16 a => exact .inl (softwareWrites_of_accept h (softwareWrites_launch _))
  | rd32 a => exact .inl (softwareWrites_of_accept h (softwareWrites_launch _))
  | wr8 a v => exact .inl (softwareWrites_of_accept h (fun s => by simpa using softwareWrites_memWrite a 1 v s))
  | wr16 a v => exact .inl (softwareWrites_of_accept h (softwareWrites_launch _))
  | wr32 a v => exact .inl (softwareWrites_of_accept h (softwareWrites_launch _))
  | qenq sel b => exact .inl (softwareWrites_of_accept h (softwareWrites_queueRequest _ _ (by simp)))
  | qdeq sel => exact .inl (softwareWrites_of_accept h (softwareWrites_queueRequest _ _ (by simp)))
  | qfull sel => exact .inl (softwareWrites_of_accept h (softwareWrites_queueRequest _ _ (by simp)))
  | qempty sel => exact .inl (softwareWrites_of_accept h (softwareWrites_queueRequest _ _ (by simp)))
  | qlen sel => exact .inl (softwareWrites_of_accept h (softwareWrites_queueRequest _ _ (by simp)))
  | start => exact .inl (softwareWrites_of_accept h (softwareWrites_launch _))
  | stop => exact .inl (softwareWrites_of_accept h (softwareWrites_launch _))
  | writeb len bytes => exact .inl (softwareWrites_of_accept h (softwareWrites_enterLoop _ (by simp)))
  | readb count => exact .inl (softwareWrites_of_accept h (softwareWrites_enterLoop _ (by simp)))
  | readnb count => exact .inl (softwareWrites_of_accept h (softwareWrites_enterLoop _ (by simp)))
  | rxlen => exact .inl (softwareWrites_of_accept h (softwareWrites_queueRequest _ _ (by simp)))
  | txlen => exact .inl (softwareWrites_of_accept h (softwareWrites_queueRequest _ _ (by simp)))
  | totalrx => exact .inl (softwareWrites_of_accept h (softwareWrites_answer _))
  | rxerr => exact .inl (softwareWrites_of_accept h (softwareWrites_answer _))
  | txerr => exact .inl (softwareWrites_of_accept h (softwareWrites_answer _))
  | service =>
    refine .inl (softwareWrites_of_accept h (fun s => ?_))
    split
    · exact softwareWrites_enterService s
    · exact softwareWrites_gatedService s
  | lflags m v => exact lineWrite_of_accept h (by decide) 0#2 _ (answer_store _ _ _)
  | lrxdata b => exact lineWrite_of_accept h (by decide) 2#2 b (answer_store _ _ _)
  | lpeek k => exact .inl (softwareWrites_of_accept h (softwareWrites_answer _))
  | lpoke k b => exact lineWrite_of_accept h (by decide) k b (answer_store _ _ _)

/-! ### One step of the machine -/

/-- A request the decoder refuses is rejected as illegal where the model goes on. -/
theorem refuseRequest_next (e : DecodeError) (s t : State) (h : refuseRequest e s = .next t) :
    t = rejectIllegal ((errorOpcode e).getD 0#8) s := by
  unfold refuseRequest present at h
  split at h
  · split at h
    · dsimp only at h
      split at h
      · exact (Host.Outcome.next.inj h).symm
      · cases h
    · cases h
  · cases h

/-- A turn does byte lanes of software writes to the store, or it is the line side's and does one line write. -/
theorem step_store (s t : State) (h : step s = .next t) :
    SoftwareWrites s.store t.store ∨ s.nextAgent = some .line ∧ ∃ k v, t.store = (lineWrite k v s).store := by
  unfold step fetch at h
  cases hs : s.schedule with
  | nil =>
    obtain rfl : s = t := by simpa [hs] using h
    exact .inl .refl
  | cons turn rest =>
    cases turn with
    | advance a ps =>
      obtain rfl : runTurn (latch a ps rest s) = t := by simpa [hs] using h
      exact .inl (softwareWrites_runTurn (latch a ps rest s))
    | issue a bytes ps =>
      cases hd : decodeRequest bytes with
      | ok i =>
        replace h : exec i (latch a ps rest s) = .next t := by simpa [hs, fetchRequest, hd] using h
        have hnext : s.nextAgent = some a := by simp [State.nextAgent, hs]
        refine (exec_store i _ t h).imp id ?_
        rintro ⟨hline, hwrite⟩
        exact ⟨hnext.trans (congrArg some hline), hwrite⟩
      | error e =>
        replace h : refuseRequest e (latch a ps rest s) = .next t := by simpa [hs, fetchRequest, hd] using h
        rw [refuseRequest_next e _ t h]
        exact .inl (softwareWrites_of_eq (rejectIllegal_store _ _))

/-! ### DATA's upper byte (rule R34) -/

/-- No software write of the store puts anything but 0x00 into `store[3]`. -/
theorem read_three_of_softwareWrites {m m' : Memory} (h : SoftwareWrites m m') (h0 : m.read 3 = 0#8) :
    m'.read 3 = 0#8 := by
  induction h with
  | refl => exact h0
  | tail _ hw ih =>
    obtain ⟨o, v, rfl⟩ := hw
    rw [read_writeStoreByte]
    split
    · rfl
    · exact ih

theorem read_three_lineWrite (k : BitVec 2) (v : Byte) (s : State) (h0 : s.store.read 3 = 0#8) :
    (lineWrite k v s).store.read 3 = 0#8 := by
  rw [lineWrite_store]
  by_cases hk : k = 3#2
  · subst hk
    exact Memory.read_write_same s.store 3 0#8
  · rw [Memory.read_write_other _ (by bv_omega), h0]

theorem step_read_three (s t : State) (h0 : s.store.read 3 = 0#8) (h : step s = .next t) : t.store.read 3 = 0#8 := by
  rcases step_store s t h with hsw | ⟨-, k, v, hline⟩
  · exact read_three_of_softwareWrites hsw h0
  · exact hline ▸ read_three_lineWrite k v s h0

/-- The window's offset of the address `k` above its base. -/
theorem busOffset_statusBase_add (c : Config) (k : Addr) : busOffset c (c.statusBase + k) = k.toNat := by
  unfold busOffset
  congr 1
  ring

theorem byteWrite_three_read (v : Byte) (s : State) :
    (byteWrite (s.cfg.statusBase + 3#32) v s).store.read 3 = 0#8 := by
  rw [byteWrite_store, busOffset_statusBase_add, read_writeStoreByte]
  rfl

theorem byteRead_three (s : State) : byteRead (s.cfg.statusBase + 3#32) s = s.store.read 3 := by
  rw [byteRead, busOffset_statusBase_add]
  rfl

/-- A one-byte read is the byte, zero-extended. -/
theorem memRead_one (a : Addr) (s : State) : memRead a 1 s = (byteRead a s).setWidth 32 := by
  have ha : byteAddr a 0 = a := by simp [byteAddr]
  rw [BitVec.setWidth_eq_append (by decide)]
  simp [memRead, assemble, laneByte, Table.find_cons, ha]

/-- Settles O44: a turn writes the store through the two write paths only, and each of them stores 0x00 at index 3. -/
theorem dataHighByteIsAlwaysZero : Obligations.DataHighByteIsAlwaysZero := by
  refine ⟨rfl, step_read_three, byteWrite_three_read, fun b s => Memory.read_write_same s.store 3 0#8,
    fun s h0 => ⟨?_, h0⟩⟩
  rw [memRead_one, byteRead_three, h0]
  rfl

end Sys2Proof.Machine
end

section
/-! A bus access run to completion in its own turn, whatever the order of its byte lanes (20_memory.md rules R55, R56 and
R61): a read assembles `MemRead` of the one state, a write performs each of its lanes once. Addresses outside the window
follow (rule R64). -/

namespace Sys2Proof.Machine

/-! ### The lanes that are left -/

/-- Performing a lane takes it out of the lanes that are left. -/
theorem lanesLeft_put (w k : Nat) (b : Byte) (lanes : Lanes) :
    lanesLeft w (Table.put k b lanes) = (lanesLeft w lanes).erase k := by
  have hnodup : (lanesLeft w lanes).Nodup := List.nodup_range.filter _
  rw [hnodup.erase_eq_filter, lanesLeft, lanesLeft, List.filter_filter]
  refine List.filter_congr fun j _ => ?_
  rw [Table.find_put]
  by_cases hj : j = k <;> simp [hj]

/-- An access with nothing performed has every lane left. -/
@[simp] theorem lanesLeft_nil (w : Nat) : lanesLeft w [] = List.range w := by simp [lanesLeft]

/-- A micro-step performs exactly one of the lanes that are left. -/
theorem lanesLeft_perm (w : Nat) (lanes : Lanes) (pick : Nat) (b : Byte) (h : lanesDone w lanes = false) :
    (nextLane w lanes pick :: lanesLeft w (Table.put (nextLane w lanes pick) b lanes)).Perm (lanesLeft w lanes) := by
  rw [lanesLeft_put]
  exact (List.perm_cons_erase (nextLane_mem w lanes pick h)).symm

theorem length_lanesLeft_put (w : Nat) (lanes : Lanes) (pick : Nat) (b : Byte) (h : lanesDone w lanes = false) :
    (lanesLeft w (Table.put (nextLane w lanes pick) b lanes)).length + 1 = (lanesLeft w lanes).length :=
  (lanesLeft_perm w lanes pick b h).length_eq

theorem lanesDone_nil {w : Nat} (hw : 0 < w) : lanesDone w [] = false := by
  simp [lanesDone, Nat.pos_iff_ne_zero.mp hw]

/-- An access that is not done has a micro-step to go. -/
theorem length_lanesLeft_pos {w : Nat} {lanes : Lanes} (h : lanesDone w lanes = false) :
    0 < (lanesLeft w lanes).length := by
  have hne : lanesLeft w lanes ≠ [] := by simpa [lanesDone] using h
  exact List.length_pos_iff.mpr hne

/-! ### An operation in flight -/

@[simp] theorem setCaller_setCaller (n : Nat) (op op' : CallerOp) (s : State) :
    (s.setCaller n op).setCaller n op' = s.setCaller n op' := by
  simp [State.setCaller]

/-- The answer ends the operation: which one it was is forgotten. -/
@[simp] theorem answer_setCaller (n : Nat) (op : CallerOp) (r : Response) (s : State) :
    (s.setCaller n op).answer (.caller n) r = s.answer (.caller n) r := by
  simp [State.answer, State.setIdle, State.setCaller]

/-- What a byte step reads does not depend on the operations in flight. -/
@[simp] theorem readLane_setCaller (a : Addr) (w : Nat) (lanes : Lanes) (pick n : Nat) (op : CallerOp) (s : State) :
    readLane a w lanes pick (s.setCaller n op) = readLane a w lanes pick s := rfl

/-- A byte step of a write leaves the operations in flight. -/
@[simp] theorem writeLane_setCaller (a : Addr) (v : Word) (w : Nat) (lanes : Lanes) (pick n : Nat) (op : CallerOp)
    (s : State) : writeLane a v w lanes pick (s.setCaller n op) = (writeLane a v w lanes pick s).setCaller n op := rfl

/-- A caller's micro-step is that of its operation in flight. -/
theorem microStep_setCaller (n p : Nat) (op : CallerOp) (s : State) :
    microStep (.caller n) p (s.setCaller n op) = stepCaller p n op (s.setCaller n op) := by
  simp [microStep]

theorem launch_of_caller {n : Nat} {s : State} (op : CallerOp) (h : s.active = .caller n) :
    launch op s = runAgent (.caller n) s.picks (s.setCaller n op) := by
  simp [launch, runTurn, h]

/-! ### Reads -/

/-- The lanes performed so far hold the bytes of the read of `a` in the state `s`, and are lanes of the access. -/
def LanesRead (a : Addr) (w : Nat) (s : State) (lanes : Lanes) : Prop :=
  ∀ k b, Table.find k lanes = some b → k < w ∧ b = byteRead (byteAddr a k) s

theorem lanesRead_nil (a : Addr) (w : Nat) (s : State) : LanesRead a w s [] := by
  intro k b h
  cases h

theorem lanesRead_readLane {a : Addr} {w : Nat} {s : State} {lanes : Lanes} (pick : Nat) (h : LanesRead a w s lanes)
    (hleft : lanesDone w lanes = false) : LanesRead a w s (readLane a w lanes pick s) := by
  intro k b hk
  rw [readLane, Table.find_put] at hk
  split at hk
  · next heq =>
    cases hk
    exact ⟨heq ▸ nextLane_lt w lanes pick hleft, by rw [heq]⟩
  · exact h k b hk

/-- A finished read has exactly the bytes of `MemRead`, a lane the access does not have being 0x00. -/
theorem laneByte_of_lanesRead {a : Addr} {w : Nat} {s : State} {lanes : Lanes} (h : LanesRead a w s lanes)
    (hdone : lanesDone w lanes = true) (k : Nat) :
    laneByte lanes k = if k < w then byteRead (byteAddr a k) s else 0#8 := by
  unfold laneByte
  cases hf : Table.find k lanes with
  | none =>
    have hk : ¬ k < w := fun hlt => (lanesDone_iff w lanes).mp hdone k hlt hf
    rw [if_neg hk, Option.getD_none]
  | some b =>
    obtain ⟨hlt, hb⟩ := h k b hf
    rw [if_pos hlt, Option.getD_some, hb]

/-- Looking up a byte in a list of lanes `f` fills. -/
theorem find_map_lanes (f : Nat → Byte) (ks : List Nat) (k : Nat) :
    Table.find k (ks.map fun j => (j, f j)) = if k ∈ ks then some (f k) else none := by
  induction ks with
  | nil => rfl
  | cons j js ih =>
    rw [List.map_cons, Table.find_cons, ih]
    by_cases hj : j = k
    · simp [hj]
    · simp [hj, Ne.symm hj]

/-- The lanes `MemRead` assembles (rule R55). -/
theorem laneByte_memRead_lanes (f : Nat → Byte) (w k : Nat) :
    laneByte ((List.range w).map fun j => (j, f j)) k = if k < w then f k else 0#8 := by
  rw [laneByte, find_map_lanes]
  by_cases hk : k < w <;> simp [hk]

theorem assemble_eq_memRead {a : Addr} {w : Nat} {s : State} {lanes : Lanes} (h : LanesRead a w s lanes)
    (hdone : lanesDone w lanes = true) : assemble lanes = memRead a w s := by
  simp only [memRead, assemble, laneByte_of_lanesRead h hdone, laneByte_memRead_lanes]

/-- A read in flight with enough picks for its lanes hands over `MemRead` and is over, whatever the picks. -/
theorem runAgent_busRead (a : Addr) (w n : Nat) (s : State) (ps : List Nat) (lanes : Lanes)
    (hread : LanesRead a w s lanes) (hleft : lanesDone w lanes = false) (hps : (lanesLeft w lanes).length ≤ ps.length) :
    runAgent (.caller n) ps (s.setCaller n (.busRead a w lanes))
      = s.answer (.caller n) (.rdata (memRead a w s)) := by
  induction ps generalizing lanes with
  | nil => exact absurd hps (Nat.not_le_of_lt (length_lanesLeft_pos hleft))
  | cons p ps ih =>
    have hread' := lanesRead_readLane p hread hleft
    have hlen : (lanesLeft w (readLane a w lanes p s)).length + 1 = (lanesLeft w lanes).length :=
      length_lanesLeft_put w lanes p _ hleft
    simp only [runAgent_cons, microStep_setCaller, stepCaller, stepBusRead, readLane_setCaller, answer_setCaller,
      setCaller_setCaller]
    split
    · next hdone =>
      rw [runAgent_of_idle _ _ _ (agentIdle_answer _ _ _), assemble_eq_memRead hread' hdone]
    · next hdone =>
      rw [List.length_cons] at hps
      exact ih _ hread' (by simpa using hdone) (by omega)

/-- RD16 and RD32 run to completion (rules R111, R112). -/
theorem launch_busRead {op : Byte} {s : State} {w : Nat} (a : Addr) (h : s.admits op = true) (ho : op.toNat < 0x40)
    (hw : 0 < w) (hps : w ≤ s.picks.length) :
    launch (.busRead a w []) s = s.answer s.active (.rdata (memRead a w s)) := by
  obtain ⟨n, hn, -⟩ := caller_of_admits op s h ho
  rw [launch_of_caller _ hn, hn]
  exact runAgent_busRead a w n s s.picks [] (lanesRead_nil a w s) (lanesDone_nil hw) (by simpa using hps)

/-! ### Writes -/

/-- The byte lanes `ks` of a software write of `v` at `a`, one after the other (rule R56). -/
def writeLanes (a : Addr) (v : Word) (ks : List Nat) (s : State) : State :=
  ks.foldl (fun t k => byteWrite (byteAddr a k) (laneOf v k) t) s

theorem memWrite_eq_writeLanes (a : Addr) (w : Nat) (v : Word) (s : State) :
    memWrite a w v s = writeLanes a v (List.range w) s := rfl

theorem writeLanes_cons (a : Addr) (v : Word) (k : Nat) (ks : List Nat) (s : State) :
    writeLanes a v (k :: ks) s = writeLanes a v ks (byteWrite (byteAddr a k) (laneOf v k) s) := rfl

/-- A write in flight with enough picks for its lanes performs each lane that is left once, in some order, and is over. -/
theorem runAgent_busWrite (a : Addr) (w n : Nat) (v : Word) (s : State) (ps : List Nat) (lanes : Lanes)
    (hleft : lanesDone w lanes = false) (hps : (lanesLeft w lanes).length ≤ ps.length) :
    ∃ ks, ks.Perm (lanesLeft w lanes)
      ∧ runAgent (.caller n) ps (s.setCaller n (.busWrite a w v lanes))
          = (writeLanes a v ks s).answer (.caller n) .ack := by
  induction ps generalizing lanes s with
  | nil => exact absurd hps (Nat.not_le_of_lt (length_lanesLeft_pos hleft))
  | cons p ps ih =>
    have hperm : (nextLane w lanes p :: lanesLeft w (markLane v w lanes p)).Perm (lanesLeft w lanes) :=
      lanesLeft_perm w lanes p _ hleft
    simp only [runAgent_cons, microStep_setCaller, stepCaller, stepBusWrite, writeLane_setCaller, answer_setCaller,
      setCaller_setCaller]
    split
    · next hdone =>
      have hnone : lanesLeft w (markLane v w lanes p) = [] := by simpa [lanesDone] using hdone
      exact ⟨[nextLane w lanes p], hnone ▸ hperm, runAgent_of_idle _ _ _ (agentIdle_answer _ _ _)⟩
    · next hdone =>
      have hlen := hperm.length_eq
      rw [List.length_cons] at hps hlen
      obtain ⟨ks, hks, hrun⟩ := ih (writeLane a v w lanes p s) _ (by simpa using hdone) (by omega)
      exact ⟨nextLane w lanes p :: ks, (hks.cons _).trans hperm, hrun⟩

/-- WR16 and WR32 run to completion (rules R114, R115). -/
theorem launch_busWrite {op : Byte} {s : State} {w : Nat} (a : Addr) (v : Word) (h : s.admits op = true)
    (ho : op.toNat < 0x40) (hw : 0 < w) (hps : w ≤ s.picks.length) :
    ∃ ks, ks.Perm (List.range w)
      ∧ launch (.busWrite a w v []) s = (writeLanes a v ks s).answer s.active .ack := by
  obtain ⟨n, hn, -⟩ := caller_of_admits op s h ho
  rw [launch_of_caller _ hn, hn, ← lanesLeft_nil w]
  exact runAgent_busWrite a w n v s s.picks [] (lanesDone_nil hw) (by simpa using hps)

/-! ### Outside the window (rule R64) -/

theorem byteRead_outside {a : Addr} {s : State} (h : 4 ≤ busOffset s.cfg a) : byteRead a s = 0#8 :=
  if_neg (Nat.not_lt_of_le h)

theorem byteWrite_outside {a : Addr} {s : State} (b : Byte) (h : 4 ≤ busOffset s.cfg a) : byteWrite a b s = s := by
  rw [byteWrite, writeStoreByte_outside _ b _ h]

/-- Every byte of the `w`-byte access at `a` is outside the window. -/
def AccessOutside (c : Config) (a : Addr) (w : Nat) : Prop := ∀ k, k < w → 4 ≤ busOffset c (byteAddr a k)

theorem memRead_outside {a : Addr} {w : Nat} {s : State} (h : AccessOutside s.cfg a w) : memRead a w s = 0#32 := by
  have hlane (k : Nat) : (if k < w then byteRead (byteAddr a k) s else 0#8) = 0#8 := by
    split
    · next hk => exact byteRead_outside (h k hk)
    · rfl
  simp only [memRead, assemble, laneByte_memRead_lanes, hlane]
  rfl

theorem writeLanes_outside {a : Addr} {s : State} (v : Word) (ks : List Nat)
    (h : ∀ k ∈ ks, 4 ≤ busOffset s.cfg (byteAddr a k)) : writeLanes a v ks s = s := by
  induction ks with
  | nil => rfl
  | cons k ks ih =>
    rw [List.forall_mem_cons] at h
    obtain ⟨hk, hks⟩ := h
    rw [writeLanes_cons, byteWrite_outside _ hk, ih hks]

/-- An admitted request that hands over `MemRead` of bytes all outside hands over 0 and changes nothing else. -/
theorem accept_read_outside {op : Byte} {run : State → State} {a : Addr} {w : Nat} {s : State}
    (h : s.admits op = true) (hrun : run s = s.answer s.active (.rdata (memRead a w s)))
    (hout : AccessOutside s.cfg a w) :
    accept op s run = .next { s with responses := (s.active, .rdata 0#32) :: s.responses } := by
  rw [accept_of_admits op s run h, hrun, memRead_outside hout, answer_of_idle _ _ s (idle_of_admits op s h)]

/-- An admitted request that writes byte lanes all outside is acknowledged and changes nothing else. -/
theorem accept_write_outside {op : Byte} {run : State → State} {a : Addr} {v : Word} {w : Nat} {s : State}
    (h : s.admits op = true)
    (hrun : ∃ ks, ks.Perm (List.range w) ∧ run s = (writeLanes a v ks s).answer s.active .ack)
    (hout : AccessOutside s.cfg a w) :
    accept op s run = .next { s with responses := (s.active, .ack) :: s.responses } := by
  obtain ⟨ks, hks, hrun⟩ := hrun
  have hlanes : ∀ k ∈ ks, 4 ≤ busOffset s.cfg (byteAddr a k) := fun k hk =>
    hout k (List.mem_range.mp (hks.mem_iff.mp hk))
  rw [accept_of_admits op s run h, hrun, writeLanes_outside v ks hlanes, answer_of_idle _ _ s (idle_of_admits op s h)]

/-- Settles O13: whatever the order of its lanes, an access outside the window assembles bytes 0x00 only, or performs
lanes none of which reaches the store. -/
theorem outsideTheWindowReadsZeroAndIgnoresWrites : Obligations.OutsideTheWindowReadsZeroAndIgnoresWrites := by
  intro addr v s
  refine ⟨fun h => ⟨byteRead_outside h, fun b => byteWrite_outside b h⟩, fun hout => ⟨fun h => ?_, fun h => ?_⟩,
    fun hout hps => ⟨fun h => ?_, fun h => ?_⟩, fun hout hps => ⟨fun h => ?_, fun h => ?_⟩⟩
  · exact accept_read_outside (run := fun s => s.answer s.active (.rdata (memRead addr 1 s))) h rfl hout
  · exact accept_write_outside (run := fun s => (memWrite addr 1 v s).answer s.active .ack) h
      ⟨List.range 1, .refl _, by rw [memWrite_eq_writeLanes]⟩ hout
  · exact accept_read_outside h (launch_busRead addr h (by decide) (by decide) hps) hout
  · exact accept_write_outside h (launch_busWrite addr v h (by decide) (by decide) hps) hout
  · exact accept_read_outside h (launch_busRead addr h (by decide) (by decide) hps) hout
  · exact accept_write_outside h (launch_busWrite addr v h (by decide) (by decide) hps) hout

end Sys2Proof.Machine
end

section
/-! SERVICE never writes STATUS (43_service.md rule R187): its one write of the store is V9's, and both byte lanes of that
write are DATA's. -/

namespace Sys2Proof.Machine

/-- A step that leaves the store leaves STATUS. -/
theorem status_of_store_eq {s t : State} (h : t.store = s.store) : t.status = s.status := by
  rw [State.status, State.status, h]

/-- A software write above STATUS's two bytes leaves STATUS. -/
theorem byteWrite_status {a : Addr} {s : State} (v : Byte) (h : 2 ≤ busOffset s.cfg a) :
    (byteWrite a v s).status = s.status := by
  have hread (k : Nat) (hk : k < 2) : (byteWrite a v s).store.read k = s.store.read k := by
    rw [byteWrite_store, read_writeStoreByte, if_neg (by omega)]
  rw [State.status, State.status, hread 0 (by decide), hread 1 (by decide)]

/-- A byte step of a half-word access is on lane 0 or 1, whatever lanes are recorded as performed. -/
theorem nextLane_two_lt (lanes : Lanes) (pick : Nat) : nextLane 2 lanes pick < 2 := by
  cases hdone : lanesDone 2 lanes with
  | false => exact nextLane_lt 2 lanes pick hdone
  | true =>
    have hnone : lanesLeft 2 lanes = [] := by simpa [lanesDone] using hdone
    simp [nextLane, hnone]

/-- The two bytes at DATA's base are bytes 2 and 3 of the window, for every base. -/
theorem busOffset_dataBase_byte (c : Config) {k : Nat} (hk : k < 2) : busOffset c (byteAddr (dataBase c) k) = 2 + k := by
  rw [byteAddr, dataBase, BitVec.add_assoc, busOffset_statusBase_add]
  simp only [BitVec.toNat_add, BitVec.toNat_ofNat]
  omega

/-- A byte step of a half-word write at DATA's base leaves STATUS. -/
theorem writeLane_dataBase_status (v : Word) (lanes : Lanes) (pick : Nat) (s : State) :
    (writeLane (dataBase s.cfg) v 2 lanes pick s).status = s.status := by
  refine byteWrite_status _ ?_
  rw [busOffset_dataBase_byte s.cfg (nextLane_two_lt lanes pick)]
  omega

/-- V9 leaves STATUS. -/
theorem stepSend_status (pick : Nat) (v : Half) (t : Byte) (lanes : Lanes) (s : State) :
    (stepSend pick v t lanes s).status = s.status := by
  have hwrite := writeLane_dataBase_status (t.setWidth 32) lanes pick s
  unfold stepSend
  split
  · exact (status_of_store_eq (answer_store _ _ _)).trans hwrite
  · exact (status_of_store_eq (setIsr_store _ _)).trans hwrite

/-- Every phase of SERVICE but V9 leaves the whole store. -/
theorem stepService_status (pick : Nat) (p : ServicePhase) (s : State) :
    (stepService pick p s).status = s.status := by
  cases p with
  | snapshot lanes => exact status_of_store_eq (stepSnapshot_store pick lanes s)
  | markError v => exact status_of_store_eq (serviceGoto_store _ _)
  | readData v => rfl
  | countByte v b => rfl
  | testFull v b => exact status_of_store_eq (stepTestFull_store v b s)
  | dropByte v b => exact status_of_store_eq (serviceGoto_store _ _)
  | enqueue v b => exact status_of_store_eq (stepEnqueue_store v b s)
  | enqueueFailed v b => exact status_of_store_eq (serviceGoto_store _ _)
  | dequeue v => exact status_of_store_eq (stepDequeue_store v s)
  | send v t lanes => exact stepSend_status pick v t lanes s
  | dequeueFailed v => rfl

theorem microStep_isr_status (pick : Nat) (s : State) : (microStep .isr pick s).status = s.status := by
  cases hp : s.isr with
  | some p => simpa only [microStep, hp] using stepService_status pick p s
  | none => simp only [microStep, hp]

theorem enterService_status {s : State} (h : s.active = .isr) : (enterService s).status = s.status := by
  have hkeeps := runAgent_keeps (fun t => t.status = s.status) .isr
    (fun p t ht => (microStep_isr_status p t).trans ht) s.picks (s.setIsr (.snapshot [])) rfl
  simpa [enterService, runTurn, h] using hkeeps

theorem gatedService_status {s : State} (h : s.active = .isr) : (gatedService s).status = s.status := by
  unfold gatedService
  split
  · rfl
  · exact enterService_status h
  · rfl

theorem execService_status {s t : State} (h : execService s = .next t) : t.status = s.status := by
  unfold execService at h
  rcases accept_cases 0x40#8 s _ with ⟨ha, he⟩ | ⟨-, -, he⟩ | ⟨-, f, he⟩
  · obtain ⟨hisr, -⟩ := isr_of_admits s ha
    rw [← Host.Outcome.next.inj (he.symm.trans h)]
    split
    · exact enterService_status hisr
    · exact gatedService_status hisr
  · rw [← Host.Outcome.next.inj (he.symm.trans h)]
    exact status_of_store_eq (rejectIllegal_store _ s)
  · cases he.symm.trans h

/-- Settles O35: SERVICE writes the store only in V9, whose two byte lanes fall on DATA for every base and every lane
order, so every micro-step of the ISR keeps STATUS, and with it the request, run or rejected. -/
theorem serviceNeverWritesStatus : Obligations.ServiceNeverWritesStatus :=
  ⟨fun _ _ => execService_status, microStep_isr_status⟩

end Sys2Proof.Machine
end

section
/-! An illegal request is rejected and does nothing else (30_encoding.md rules R92, R93, 60_exceptions.md rule R228): what
the decoder answers is settled by the opcode byte, an operation of that byte or an error that names it. -/

namespace Sys2Proof.Machine

/-! ### Bytes outside the map of rule R89 -/

/-- Rule R89's map by the fields of the opcode byte (rules R84 to R88). -/
def legalFields (op : Byte) : Bool :=
  match opClass op with
  | 1 => !op.getLsbD 2 && decide (opWidthCode op < 3)
  | 2 => decide (opQueueFn op < 5)
  | 3 => decide (opFn op < 10)
  | 4 => decide (opFn op < 1)
  | 5 => decide (opFn op < 4)
  | _ => false

/-- The list of legal bytes is the map by fields: 256 bytes, each looked up. -/
theorem legalOpcode_eq_legalFields : ∀ op : Byte, legalOpcode op = legalFields op := by decide

theorem decodeBus_of_illegal {op : Byte} (bs : List Byte) (h : op.getLsbD 2 = true ∨ 3 ≤ opWidthCode op) :
    decodeBus op bs = .error (.illegalOpcode op) := by
  unfold decodeBus
  split
  · rfl
  · next h2 =>
    have hw := h.resolve_left h2
    split
    case h_7 => rfl
    all_goals omega

theorem decodeQueue_of_illegal {op : Byte} (bs : List Byte) (h : 5 ≤ opQueueFn op) :
    decodeQueue op bs = .error (.illegalOpcode op) := by
  unfold decodeQueue
  split
  case h_6 => rfl
  all_goals omega

theorem decodeDriver_of_illegal {op : Byte} (bs : List Byte) (h : 10 ≤ opFn op) :
    decodeDriver op bs = .error (.illegalOpcode op) := by
  unfold decodeDriver
  split
  case h_11 => rfl
  all_goals omega

theorem decodeService_of_illegal {op : Byte} (bs : List Byte) (h : 1 ≤ opFn op) :
    decodeService op bs = .error (.illegalOpcode op) := by
  unfold decodeService
  split
  case h_2 => rfl
  all_goals omega

theorem decodeLine_of_illegal {op : Byte} (bs : List Byte) (h : 4 ≤ opFn op) :
    decodeLine op bs = .error (.illegalOpcode op) := by
  unfold decodeLine
  split
  case h_5 => rfl
  all_goals omega

/-- A byte outside the map is refused as such, whatever follows it. -/
theorem decode_of_illegal {op : Byte} (bs : List Byte) (h : legalOpcode op = false) :
    decode (op :: bs) = .error (.illegalOpcode op) := by
  rw [legalOpcode_eq_legalFields] at h
  unfold decode
  dsimp only
  split
  · next hc =>
    refine decodeBus_of_illegal bs ?_
    simpa [legalFields, hc, or_iff_not_imp_left] using h
  · next hc => exact decodeQueue_of_illegal bs (by simpa [legalFields, hc] using h)
  · next hc => exact decodeDriver_of_illegal bs (by simpa [legalFields, hc] using h)
  · next hc => exact decodeService_of_illegal bs (by simpa [legalFields, hc, Nat.one_le_iff_ne_zero] using h)
  · next hc => exact decodeLine_of_illegal bs (by simpa [legalFields, hc] using h)
  · rfl

/-! ### Bytes of the map -/

/-- What the decoder answers for a byte of the map: an operation with that opcode byte, or an error of its operands. -/
def AnswersForOpcode (op : Byte) : Decoded → Prop
  | .ok (i, _) => i.opcode = op
  | .error e => e = .truncated op ∨ e = .operandRange op

theorem answersForOpcode_withByte {op : Byte} (bs : List Byte) {k : Byte → List Byte → Decoded}
    (h : ∀ b r, AnswersForOpcode op (k b r)) : AnswersForOpcode op (withByte op bs k) := by
  cases bs with
  | nil => exact .inl rfl
  | cons b rest => exact h b rest

theorem answersForOpcode_withWord {op : Byte} (bs : List Byte) {k : Word → List Byte → Decoded}
    (h : ∀ w r, AnswersForOpcode op (k w r)) : AnswersForOpcode op (withWord op bs k) := by
  unfold withWord
  split
  · exact h _ _
  · exact .inl rfl

theorem answersForOpcode_withSmall {op : Byte} {w : Nat} (bs : List Byte) {k : BitVec w → List Byte → Decoded}
    (h : ∀ v r, AnswersForOpcode op (k v r)) : AnswersForOpcode op (withSmall w op bs k) := by
  refine answersForOpcode_withByte bs fun b r => ?_
  split
  · exact h _ _
  · exact .inr rfl

theorem answersForOpcode_decodeWriteb (bs : List Byte) : AnswersForOpcode 0x32#8 (decodeWriteb 0x32#8 bs) := by
  refine answersForOpcode_withWord bs fun len r => ?_
  split
  · exact (rfl : Instr.opcode (.writeb _ _) = 0x32#8)
  · exact .inl rfl

/-- The decoder reads an operation's opcode byte as that operation's, whatever follows it. -/
theorem answersForOpcode_decode (i : Instr) (bs : List Byte) :
    AnswersForOpcode i.opcode (decode (i.opcode :: bs)) := by
  cases i with simp only [Instr.opcode, decode, opClass, decodeBus, decodeQueue, decodeDriver, decodeService, decodeLine,
    opWidthCode, opFn, BitVec.reduceExtractLsb', BitVec.reduceToNat, BitVec.reduceGetLsb,
    Bool.false_eq_true, if_false]
  | rd8 a => exact answersForOpcode_withWord bs fun _ _ => rfl
  | rd16 a => exact answersForOpcode_withWord bs fun _ _ => rfl
  | rd32 a => exact answersForOpcode_withWord bs fun _ _ => rfl
  | wr8 a v => exact answersForOpcode_withWord bs fun _ r => answersForOpcode_withWord r fun _ _ => rfl
  | wr16 a v => exact answersForOpcode_withWord bs fun _ r => answersForOpcode_withWord r fun _ _ => rfl
  | wr32 a v => exact answersForOpcode_withWord bs fun _ r => answersForOpcode_withWord r fun _ _ => rfl
  | qenq sel b => cases sel <;> exact answersForOpcode_withByte bs fun _ _ => rfl
  | qdeq sel => cases sel <;> rfl
  | qfull sel => cases sel <;> rfl
  | qempty sel => cases sel <;> rfl
  | qlen sel => cases sel <;> rfl
  | start => rfl
  | stop => rfl
  | writeb len bytes => exact answersForOpcode_decodeWriteb bs
  | readb count => exact answersForOpcode_withWord bs fun _ _ => rfl
  | readnb count => exact answersForOpcode_withWord bs fun _ _ => rfl
  | rxlen => rfl
  | txlen => rfl
  | totalrx => rfl
  | rxerr => rfl
  | txerr => rfl
  | service => rfl
  | lflags m v => exact answersForOpcode_withSmall bs fun _ r => answersForOpcode_withSmall r fun _ _ => rfl
  | lrxdata b => exact answersForOpcode_withByte bs fun _ _ => rfl
  | lpeek k => exact answersForOpcode_withSmall bs fun _ _ => rfl
  | lpoke k b => exact answersForOpcode_withSmall bs fun _ r => answersForOpcode_withByte r fun _ _ => rfl

/-- One operation for each byte of the map, with operands of zeros. -/
def mapOperations : List Instr :=
  [.rd8 0, .rd16 0, .rd32 0, .wr8 0 0, .wr16 0 0, .wr32 0 0,
    .qenq .rx 0, .qdeq .rx, .qfull .rx, .qempty .rx, .qlen .rx,
    .qenq .tx 0, .qdeq .tx, .qfull .tx, .qempty .tx, .qlen .tx,
    .start, .stop, .writeb 0 [], .readb 0, .readnb 0, .rxlen, .txlen, .totalrx, .rxerr, .txerr,
    .service,
    .lflags 0 0, .lrxdata 0, .lpeek 0, .lpoke 0 0]

/-- Every byte of the map is an operation's. -/
theorem exists_opcode_of_legal {op : Byte} (h : legalOpcode op = true) : ∃ i : Instr, i.opcode = op := by
  have key : ∀ op : Byte, legalOpcode op = true → op ∈ mapOperations.map Instr.opcode := by decide
  obtain ⟨i, -, hi⟩ := List.mem_map.mp (key op h)
  exact ⟨i, hi⟩

theorem answersForOpcode_of_legal {op : Byte} (bs : List Byte) (h : legalOpcode op = true) :
    AnswersForOpcode op (decode (op :: bs)) := by
  obtain ⟨i, rfl⟩ := exists_opcode_of_legal h
  exact answersForOpcode_decode i bs

/-- The decoder refuses exactly the bytes outside the map as illegal, whatever follows them. -/
theorem decode_illegal_iff (op : Byte) (bs : List Byte) :
    decode (op :: bs) = .error (.illegalOpcode op) ↔ legalOpcode op = false := by
  refine ⟨fun hd => ?_, decode_of_illegal bs⟩
  by_contra hl
  have ha := answersForOpcode_of_legal bs (by simpa using hl)
  simp [hd, AnswersForOpcode] at ha

/-! ### The request and its turn -/

/-- The whole request is an operation of its opcode byte, which is then legal, or an error that names its opcode byte,
and the one of rule R92 where that byte is illegal. -/
theorem decodeRequest_cases (op : Byte) (bs : List Byte) :
    (∃ i, decodeRequest (op :: bs) = .ok i ∧ i.opcode = op ∧ legalOpcode op = true)
    ∨ ∃ e, decodeRequest (op :: bs) = .error e ∧ errorOpcode e = some op
        ∧ (legalOpcode op = false → e = .illegalOpcode op) := by
  cases hl : legalOpcode op with
  | false => exact .inr ⟨.illegalOpcode op, by simp only [decodeRequest, decode_of_illegal bs hl], rfl, fun _ => rfl⟩
  | true =>
    have ha := answersForOpcode_of_legal bs hl
    match hd : decode (op :: bs) with
    | .ok (i, []) =>
      rw [hd] at ha
      exact .inl ⟨i, by simp only [decodeRequest, hd], ha, rfl⟩
    | .ok (i, b :: r) => exact .inr ⟨.trailingBytes op, by simp [decodeRequest, hd], rfl, nofun⟩
    | .error e =>
      rw [hd] at ha
      refine .inr ⟨e, by simp only [decodeRequest, hd], ?_, nofun⟩
      rcases ha with rfl | rfl <;> rfl

theorem step_of_decoded {s : State} {a : Agent} {bytes : List Byte} {ps : List Nat} {rest : List Turn} {i : Instr}
    (hs : s.schedule = .issue a bytes ps :: rest) (hd : decodeRequest bytes = .ok i) :
    step s = exec i (latch a ps rest s) := by
  simp [step, fetch, hs, fetchRequest, hd]

theorem step_of_refused {s : State} {a : Agent} {bytes : List Byte} {ps : List Nat} {rest : List Turn}
    {e : DecodeError} (hs : s.schedule = .issue a bytes ps :: rest) (hd : decodeRequest bytes = .error e) :
    step s = refuseRequest e (latch a ps rest s) := by
  simp [step, fetch, hs, fetchRequest, hd]

/-- An error that names an opcode byte is ILLEGAL_OP when the byte is illegal, and for any error of its operands when the
class is not the agent's: the class is decided first (rule R228). -/
theorem errorIsIllegal_of_forbidden {c : Config} {a : Agent} {e : DecodeError} {op : Byte}
    (he : errorOpcode e = some op) (h : e = .illegalOpcode op ∨ permitted c a op = false) :
    errorIsIllegal c a e = true := by
  rcases h with rfl | hp
  · rfl
  · cases e <;> simp_all [errorOpcode, errorIsIllegal, mayIssue_eq_permitted]

/-- A refused request of a ready agent is rejected where the refusal makes it illegal. -/
theorem refuseRequest_of_illegal {e : DecodeError} {s : State} {op : Byte} (hr : s.activeReady = true)
    (he : errorOpcode e = some op) (h : e = .illegalOpcode op ∨ permitted s.cfg s.active op = false) :
    refuseRequest e s = .next (rejectIllegal op s) := by
  rw [refuseRequest, present_of_ready s _ hr, if_pos (errorIsIllegal_of_forbidden he h), he, Option.getD_some]

/-- A request of a ready agent with an illegal opcode byte or a forbidden class is rejected, whatever its operands. -/
theorem step_rejects_illegal {s : State} {a : Agent} {op : Byte} {operands : List Byte} {ps : List Nat}
    {rest : List Turn} (hs : s.schedule = .issue a (op :: operands) ps :: rest)
    (hr : (latch a ps rest s).activeReady = true) (h : legalOpcode op = false ∨ permitted s.cfg a op = false) :
    step s = .next (rejectIllegal op (latch a ps rest s)) := by
  rcases decodeRequest_cases op operands with ⟨i, hd, rfl, hlegal⟩ | ⟨e, hd, he, hillegal⟩
  · have hp : permitted s.cfg a i.opcode = false := h.resolve_left (by simp [hlegal])
    obtain ⟨run, hrun⟩ := exec_is_accept i
    rw [step_of_decoded hs hd, hrun, accept_of_forbidden _ _ _ hr hp]
  · rw [step_of_refused hs hd, refuseRequest_of_illegal hr he (h.imp hillegal id)]

/-- Settles O6: the opcode byte alone decides that the request is illegal, and a rejection of an idle agent's request adds
its record and nothing else. -/
theorem illegalRequestRecordsFaultOnly : Obligations.IllegalRequestRecordsFaultOnly := by
  refine ⟨fun s a op operands ps rest hs hexists hidle h => ?_, decode_illegal_iff⟩
  have hr : (latch a ps rest s).activeReady = true := by
    rw [State.activeReady, Bool.and_eq_true]
    exact ⟨hexists, hidle⟩
  exact ⟨_, (step_rejects_illegal hs hr h).trans (congrArg _ (rejectIllegal_of_ready op _ hr)),
    hidle, rfl⟩

end Sys2Proof.Machine
end

section
/-! The sticky error flags are cleared by START's S2 alone (60_exceptions.md rule R225). Outside START's S1 and S2, a
caller's micro-step leaves the driver scalars and does not lead back to them; S1 leaves the scalars; a micro-step of
SERVICE only sets flags. -/

namespace Sys2Proof.Machine

/-! ### The driver scalars -/

/-- The two sticky error flags. They are ordered as Booleans are: `s.errorFlags ≤ t.errorFlags` when every flag of `s` is
set in `t`. -/
def State.errorFlags (s : State) : Bool × Bool := (s.receiveError, s.transmitError)

/-- What START's S2 clears: the received-byte counter and the two flags. -/
def State.scalars (s : State) : Word × Bool × Bool := (s.bytesReceived, s.errorFlags)

/-- A flag that was set and is not any more. -/
theorem not_errorFlags_le {s t : State}
    (h : (s.receiveError = true ∧ t.receiveError = false) ∨ (s.transmitError = true ∧ t.transmitError = false)) :
    ¬ s.errorFlags ≤ t.errorFlags := by
  rintro ⟨hr, ht⟩
  rcases h with ⟨hs, hc⟩ | ⟨hs, hc⟩
  · exact absurd (hr hs) (by simp [State.errorFlags, hc])
  · exact absurd (ht hs) (by simp [State.errorFlags, hc])

theorem errorFlags_le_of_scalars {s t : State} (h : t.scalars = s.scalars) : s.errorFlags ≤ t.errorFlags :=
  (congrArg Prod.snd h).ge

@[simp] theorem answer_scalars (a : Agent) (r : Response) (s : State) : (s.answer a r).scalars = s.scalars := by
  cases a <;> rfl

@[simp] theorem raiseFault_scalars (a : Agent) (op : Byte) (c : FaultCode) (s : State) :
    (s.raiseFault a op c).scalars = s.scalars := by
  cases a <;> rfl

@[simp] theorem enqState_scalars (sel : QueueSel) (b : Byte) (s : State) : (enqState sel b s).scalars = s.scalars := by
  simp [State.scalars, State.errorFlags]

@[simp] theorem deqState_scalars (sel : QueueSel) (s : State) : (deqState sel s).scalars = s.scalars := by
  simp [State.scalars, State.errorFlags]

theorem rejectIllegal_scalars (op : Byte) (s : State) : (rejectIllegal op s).scalars = s.scalars :=
  raiseFault_scalars _ _ _ s

/-! ### A caller's micro-step -/

/-- Caller `n` has no START in flight that still has S2 before it. -/
def State.pastS2 (n : Nat) (s : State) : Prop :=
  s.callerOp n ≠ some (.start .s1) ∧ s.callerOp n ≠ some (.start .s2)

/-- A step of caller `n` that leaves the driver scalars, after which the caller is past S2. -/
def StepsPastS2 (n : Nat) (s t : State) : Prop := t.scalars = s.scalars ∧ t.pastS2 n

theorem pastS2_of_idle {n : Nat} {s : State} (h : s.agentIdle (.caller n) = true) : s.pastS2 n := by
  have hop : s.callerOp n = none := by simpa [State.agentIdle] using h
  simp [State.pastS2, hop]

theorem stepsPastS2_answer {n : Nat} {s u : State} (r : Response) (h : u.scalars = s.scalars) :
    StepsPastS2 n s (u.answer (.caller n) r) :=
  ⟨(answer_scalars _ _ u).trans h, pastS2_of_idle (agentIdle_answer _ _ u)⟩

theorem stepsPastS2_raiseFault (n : Nat) (op : Byte) (c : FaultCode) (s : State) :
    StepsPastS2 n s (s.raiseFault (.caller n) op c) :=
  ⟨raiseFault_scalars _ _ _ s, pastS2_of_idle (agentIdle_raiseFault _ _ _ s)⟩

theorem stepsPastS2_setCaller {n : Nat} {s u : State} {op : CallerOp} (h : u.scalars = s.scalars)
    (h1 : op ≠ .start .s1) (h2 : op ≠ .start .s2) : StepsPastS2 n s (u.setCaller n op) := by
  refine ⟨h, ?_⟩
  rw [State.pastS2, callerOp_setCaller_same]
  exact ⟨fun he => h1 (Option.some.inj he), fun he => h2 (Option.some.inj he)⟩

theorem stepsPastS2_stepBusRead (pick n : Nat) (a : Addr) (w : Nat) (lanes : Lanes) (s : State) :
    StepsPastS2 n s (stepBusRead pick n a w lanes s) := by
  unfold stepBusRead
  split
  · exact stepsPastS2_answer _ rfl
  · exact stepsPastS2_setCaller rfl nofun nofun

theorem stepsPastS2_stepBusWrite (pick n : Nat) (a : Addr) (w : Nat) (v : Word) (lanes : Lanes) (s : State) :
    StepsPastS2 n s (stepBusWrite pick n a w v lanes s) := by
  unfold stepBusWrite
  split
  · exact stepsPastS2_answer _ rfl
  · exact stepsPastS2_setCaller rfl nofun nofun

theorem stepStart1_scalars (pick n : Nat) (s : State) : (stepStart1 pick n s).scalars = s.scalars := by
  unfold stepStart1
  split
  · split <;> rfl
  · rfl

theorem stepsPastS2_stepStart3Read (pick n : Nat) (lanes : Lanes) (s : State) :
    StepsPastS2 n s (stepStart3Read pick n lanes s) := by
  unfold stepStart3Read
  split <;> exact stepsPastS2_setCaller rfl nofun nofun

theorem stepsPastS2_stepStart3Write (pick n : Nat) (r : Word) (lanes : Lanes) (s : State) :
    StepsPastS2 n s (stepStart3Write pick n r lanes s) := by
  unfold stepStart3Write
  split <;> exact stepsPastS2_setCaller rfl nofun nofun

theorem stepsPastS2_stepStop1 (n : Nat) (s : State) : StepsPastS2 n s (stepStop1 n s) := by
  unfold stepStop1
  split
  · exact stepsPastS2_setCaller rfl nofun nofun
  · exact stepsPastS2_raiseFault _ _ _ s

theorem stepsPastS2_stepStop2Read (pick n : Nat) (lanes : Lanes) (s : State) :
    StepsPastS2 n s (stepStop2Read pick n lanes s) := by
  unfold stepStop2Read
  split <;> exact stepsPastS2_setCaller rfl nofun nofun

theorem stepsPastS2_stepStop2Write (pick n : Nat) (r : Word) (lanes : Lanes) (s : State) :
    StepsPastS2 n s (stepStop2Write pick n r lanes s) := by
  unfold stepStop2Write
  split <;> exact stepsPastS2_setCaller rfl nofun nofun

theorem stepsPastS2_stepStop3 (n : Nat) (s : State) : StepsPastS2 n s (stepStop3 n s) := by
  unfold stepStop3
  split
  · exact stepsPastS2_raiseFault _ _ _ s
  · exact stepsPastS2_answer _ rfl

theorem stepsPastS2_stepStop (pick n : Nat) (next : StopStep) (s : State) :
    StepsPastS2 n s (stepStop pick n next s) := by
  cases next with
  | t1 => exact stepsPastS2_stepStop1 n s
  | t2Read lanes => exact stepsPastS2_stepStop2Read pick n lanes s
  | t2Write r lanes => exact stepsPastS2_stepStop2Write pick n r lanes s
  | t3 => exact stepsPastS2_stepStop3 n s

theorem stepsPastS2_loopWriteb {n : Nat} {s u : State} (bytes : List Byte) (i : Nat) (h : u.scalars = s.scalars) :
    StepsPastS2 n s (loopWriteb n bytes i u) := by
  unfold loopWriteb
  split
  · exact stepsPastS2_setCaller h nofun nofun
  · exact stepsPastS2_answer _ h

theorem stepsPastS2_loopReadb {n : Nat} {s u : State} (count : Nat) (out : List Byte) (h : u.scalars = s.scalars) :
    StepsPastS2 n s (loopReadb n count out u) := by
  unfold loopReadb
  split
  · exact stepsPastS2_setCaller h nofun nofun
  · exact stepsPastS2_answer _ h

theorem stepsPastS2_loopReadnb {n : Nat} {s u : State} (count : Nat) (out : List Byte) (h : u.scalars = s.scalars) :
    StepsPastS2 n s (loopReadnb n count out u) := by
  unfold loopReadnb
  split
  · exact stepsPastS2_setCaller h nofun nofun
  · exact stepsPastS2_answer _ h

theorem stepsPastS2_stepWriteb {n : Nat} {s : State} (bytes : List Byte) (i : Nat) (hs : s.pastS2 n) :
    StepsPastS2 n s (stepWriteb n bytes i s) := by
  unfold stepWriteb
  split
  · exact stepsPastS2_raiseFault _ _ _ s
  · split
    · exact stepsPastS2_loopWriteb _ _ (enqState_scalars _ _ s)
    · exact ⟨rfl, hs⟩
    · exact ⟨rfl, hs⟩
    · exact stepsPastS2_answer _ rfl

theorem stepsPastS2_stepReadb {n : Nat} {s : State} (count : Nat) (out : List Byte) (hs : s.pastS2 n) :
    StepsPastS2 n s (stepReadb n count out s) := by
  unfold stepReadb
  split
  · exact stepsPastS2_raiseFault _ _ _ s
  · split
    · exact stepsPastS2_loopReadb _ _ (deqState_scalars _ s)
    · exact ⟨rfl, hs⟩
    · exact ⟨rfl, hs⟩
    · exact stepsPastS2_answer _ rfl

theorem stepsPastS2_stepReadnb {n : Nat} {s : State} (count : Nat) (out : List Byte) (hs : s.pastS2 n) :
    StepsPastS2 n s (stepReadnb n count out s) := by
  unfold stepReadnb
  split
  · exact stepsPastS2_raiseFault _ _ _ s
  · split
    · exact stepsPastS2_loopReadnb _ _ (deqState_scalars _ s)
    · exact ⟨rfl, hs⟩
    · exact stepsPastS2_answer _ rfl
    · exact stepsPastS2_answer _ rfl

/-- Past S2, every micro-step of the caller's operation leaves the scalars and stays past S2. -/
theorem stepsPastS2_stepCaller {n : Nat} {op : CallerOp} {s : State} (pick : Nat) (hop : s.callerOp n = some op)
    (hs : s.pastS2 n) : StepsPastS2 n s (stepCaller pick n op s) := by
  cases op with
  | busRead a w lanes => exact stepsPastS2_stepBusRead pick n a w lanes s
  | busWrite a w v lanes => exact stepsPastS2_stepBusWrite pick n a w v lanes s
  | start next =>
    cases next with
    | s1 => exact absurd hop hs.1
    | s2 => exact absurd hop hs.2
    | s3Read lanes => exact stepsPastS2_stepStart3Read pick n lanes s
    | s3Write r lanes => exact stepsPastS2_stepStart3Write pick n r lanes s
    | s4 => exact stepsPastS2_answer _ rfl
  | stop next => exact stepsPastS2_stepStop pick n next s
  | writeb bytes i => exact stepsPastS2_stepWriteb bytes i hs
  | readb count out => exact stepsPastS2_stepReadb count out hs
  | readnb count out => exact stepsPastS2_stepReadnb count out hs

theorem stepsPastS2_microStep {n : Nat} {s : State} (pick : Nat) (hs : s.pastS2 n) :
    StepsPastS2 n s (microStep (.caller n) pick s) := by
  cases hop : s.callerOp n with
  | some op => simpa only [microStep, hop] using stepsPastS2_stepCaller pick hop hs
  | none => simpa only [microStep, hop] using ⟨rfl, hs⟩

/-! ### A micro-step of SERVICE -/

@[simp] theorem serviceGoto_scalars (p : Option ServicePhase) (s : State) :
    (serviceGoto p s).scalars = s.scalars := by
  cases p <;> rfl

theorem errorFlags_le_flagReceiveError (s : State) : s.errorFlags ≤ (flagReceiveError s).errorFlags :=
  ⟨Bool.le_true _, le_rfl⟩

theorem errorFlags_le_flagTransmitError (s : State) : s.errorFlags ≤ (flagTransmitError s).errorFlags :=
  ⟨le_rfl, Bool.le_true _⟩

theorem stepSnapshot_scalars (pick : Nat) (lanes : Lanes) (s : State) :
    (stepSnapshot pick lanes s).scalars = s.scalars := by
  unfold stepSnapshot
  split
  · exact serviceGoto_scalars _ s
  · rfl

theorem stepTestFull_scalars (v : Half) (b : Byte) (s : State) : (stepTestFull v b s).scalars = s.scalars := by
  unfold stepTestFull
  split
  · rfl
  · split <;> rfl

theorem stepEnqueue_scalars (v : Half) (b : Byte) (s : State) : (stepEnqueue v b s).scalars = s.scalars := by
  unfold stepEnqueue
  split
  · rfl
  · split
    · exact (serviceGoto_scalars _ _).trans (enqState_scalars _ _ s)
    all_goals rfl

theorem stepDequeue_scalars (v : Half) (s : State) : (stepDequeue v s).scalars = s.scalars := by
  unfold stepDequeue
  split
  · rfl
  · split
    · exact deqState_scalars _ s
    all_goals rfl

theorem stepSend_scalars (pick : Nat) (v : Half) (t : Byte) (lanes : Lanes) (s : State) :
    (stepSend pick v t lanes s).scalars = s.scalars := by
  unfold stepSend
  split <;> rfl

/-- SERVICE sets error flags and clears none. -/
theorem errorFlags_le_stepService (pick : Nat) (p : ServicePhase) (s : State) :
    s.errorFlags ≤ (stepService pick p s).errorFlags := by
  have hgoto (q : Option ServicePhase) (u : State) : u.errorFlags ≤ (serviceGoto q u).errorFlags :=
    errorFlags_le_of_scalars (serviceGoto_scalars q u)
  cases p with
  | snapshot lanes => exact errorFlags_le_of_scalars (stepSnapshot_scalars pick lanes s)
  | markError v => exact (errorFlags_le_flagReceiveError s).trans (hgoto _ (countReceived (flagReceiveError s)))
  | readData v => exact le_rfl
  | countByte v b => exact le_rfl
  | testFull v b => exact errorFlags_le_of_scalars (stepTestFull_scalars v b s)
  | dropByte v b => exact (errorFlags_le_flagReceiveError s).trans (hgoto _ _)
  | enqueue v b => exact errorFlags_le_of_scalars (stepEnqueue_scalars v b s)
  | enqueueFailed v b => exact (errorFlags_le_flagReceiveError s).trans (hgoto _ _)
  | dequeue v => exact errorFlags_le_of_scalars (stepDequeue_scalars v s)
  | send v t lanes => exact errorFlags_le_of_scalars (stepSend_scalars pick v t lanes s)
  | dequeueFailed v => exact errorFlags_le_flagTransmitError s

/-! ### Any micro-step, and the micro-steps of a turn -/

theorem errorFlags_le_microStep_isr (pick : Nat) (s : State) : s.errorFlags ≤ (microStep .isr pick s).errorFlags := by
  cases hp : s.isr with
  | some p => simpa only [microStep, hp] using errorFlags_le_stepService pick p s
  | none => simp only [microStep, hp, le_refl]

/-- A micro-step clears no error flag, or it is S2 of a START. -/
theorem errorFlags_le_microStep (a : Agent) (pick : Nat) (s : State) :
    s.errorFlags ≤ (microStep a pick s).errorFlags ∨ ∃ n, a = .caller n ∧ s.callerOp n = some (.start .s2) := by
  cases a with
  | caller n =>
    by_cases h2 : s.callerOp n = some (.start .s2)
    · exact .inr ⟨n, rfl, h2⟩
    · refine .inl (errorFlags_le_of_scalars ?_)
      by_cases h1 : s.callerOp n = some (.start .s1)
      · simpa only [microStep, h1, stepCaller, stepStart] using stepStart1_scalars pick n s
      · exact (stepsPastS2_microStep pick ⟨h1, h2⟩).1
  | isr => exact .inl (errorFlags_le_microStep_isr pick s)
  | line => exact .inl le_rfl

theorem stepsPastS2_runAgent {n : Nat} {s : State} (ps : List Nat) (hs : s.pastS2 n) :
    StepsPastS2 n s (runAgent (.caller n) ps s) := by
  refine runAgent_keeps (StepsPastS2 n s) _ (fun p t ⟨hscalars, ht⟩ => ?_) ps s ⟨rfl, hs⟩
  obtain ⟨hstep, hpast⟩ := stepsPastS2_microStep p ht
  exact ⟨hstep.trans hscalars, hpast⟩

theorem errorFlags_le_runAgent_isr (ps : List Nat) (s : State) : s.errorFlags ≤ (runAgent .isr ps s).errorFlags :=
  runAgent_keeps (fun t => s.errorFlags ≤ t.errorFlags) .isr
    (fun p t h => h.trans (errorFlags_le_microStep_isr p t)) ps s le_rfl

/-! ### The turn of a request -/

/-- A turn of the active caller that begins with a step past S2 leaves the scalars to its end. -/
theorem runTurn_scalars {n : Nat} {s u : State} (ha : u.active = .caller n) (h : StepsPastS2 n s u) :
    (runTurn u).scalars = s.scalars := by
  rw [runTurn, ha]
  exact (stepsPastS2_runAgent u.picks h.2).1.trans h.1

theorem launch_scalars {op : CallerOp} (h1 : op ≠ .start .s1) (h2 : op ≠ .start .s2) (s : State) :
    (launch op s).scalars = s.scalars := by
  unfold launch
  split
  · next n ha => exact runTurn_scalars ha (stepsPastS2_setCaller rfl h1 h2)
  · rfl
  · rfl

theorem enterLoop_scalars {loop : Nat → State → State} (hactive : ∀ n s, (loop n s).active = s.active)
    (hloop : ∀ n s, StepsPastS2 n s (loop n s)) (s : State) : (enterLoop loop s).scalars = s.scalars := by
  unfold enterLoop
  split
  · next n ha => exact runTurn_scalars ((hactive n s).trans ha) (hloop n s)
  · rfl
  · rfl

theorem queueRequest_scalars {op : Byte} {act : State → State} (hact : ∀ s, (act s).scalars = s.scalars) (s : State) :
    (queueRequest op act s).scalars = s.scalars := by
  unfold queueRequest
  split
  · exact raiseFault_scalars _ _ _ s
  · exact hact s

/-- A request that leaves the scalars when it runs leaves them when it is rejected. -/
theorem scalars_of_accept {op : Byte} {run : State → State} {s t : State} (h : accept op s run = .next t)
    (hrun : ∀ s, (run s).scalars = s.scalars) : t.scalars = s.scalars := by
  obtain ⟨-, rfl | rfl⟩ := accept_next op s t run h
  · exact hrun s
  · exact rejectIllegal_scalars op s

theorem loopWriteb_active (n : Nat) (bytes : List Byte) (i : Nat) (s : State) :
    (loopWriteb n bytes i s).active = s.active := by
  unfold loopWriteb
  split <;> rfl

theorem loopReadb_active (n count : Nat) (out : List Byte) (s : State) :
    (loopReadb n count out s).active = s.active := by
  unfold loopReadb
  split <;> rfl

theorem loopReadnb_active (n count : Nat) (out : List Byte) (s : State) :
    (loopReadnb n count out s).active = s.active := by
  unfold loopReadnb
  split <;> rfl

/-- Of all requests, only START and SERVICE touch the driver scalars. -/
theorem exec_scalars {i : Instr} {s t : State} (h : exec i s = .next t) (hstart : i ≠ .start)
    (hservice : i ≠ .service) : t.scalars = s.scalars := by
  cases i with dsimp only [exec] at h
  | rd8 a => exact scalars_of_accept h fun s => answer_scalars _ _ s
  | rd16 a => exact scalars_of_accept h (launch_scalars nofun nofun)
  | rd32 a => exact scalars_of_accept h (launch_scalars nofun nofun)
  | wr8 a v => exact scalars_of_accept h fun s => answer_scalars _ _ (memWrite a 1 v s)
  | wr16 a v => exact scalars_of_accept h (launch_scalars nofun nofun)
  | wr32 a v => exact scalars_of_accept h (launch_scalars nofun nofun)
  | qenq sel b => exact scalars_of_accept h (queueRequest_scalars (by simp))
  | qdeq sel => exact scalars_of_accept h (queueRequest_scalars (by simp))
  | qfull sel => exact scalars_of_accept h (queueRequest_scalars (by simp))
  | qempty sel => exact scalars_of_accept h (queueRequest_scalars (by simp))
  | qlen sel => exact scalars_of_accept h (queueRequest_scalars (by simp))
  | start => exact absurd rfl hstart
  | stop => exact scalars_of_accept h (launch_scalars nofun nofun)
  | writeb len bytes =>
    exact scalars_of_accept h (enterLoop_scalars (fun n s => loopWriteb_active n bytes 0 s)
      fun _ _ => stepsPastS2_loopWriteb _ _ rfl)
  | readb count =>
    exact scalars_of_accept h (enterLoop_scalars (fun n s => loopReadb_active n _ _ s)
      fun _ _ => stepsPastS2_loopReadb _ _ rfl)
  | readnb count =>
    exact scalars_of_accept h (enterLoop_scalars (fun n s => loopReadnb_active n _ _ s)
      fun _ _ => stepsPastS2_loopReadnb _ _ rfl)
  | rxlen => exact scalars_of_accept h (queueRequest_scalars (by simp))
  | txlen => exact scalars_of_accept h (queueRequest_scalars (by simp))
  | totalrx => exact scalars_of_accept h fun s => answer_scalars _ _ s
  | rxerr => exact scalars_of_accept h fun s => answer_scalars _ _ s
  | txerr => exact scalars_of_accept h fun s => answer_scalars _ _ s
  | service => exact absurd rfl hservice
  | lflags m v => exact scalars_of_accept h fun s => answer_scalars _ _ { s with store := _ }
  | lrxdata b => exact scalars_of_accept h fun s => answer_scalars _ _ { s with store := _ }
  | lpeek k => exact scalars_of_accept h fun s => answer_scalars _ _ s
  | lpoke k b => exact scalars_of_accept h fun s => answer_scalars _ _ (lineWrite k b s)

theorem errorFlags_le_enterService {s : State} (h : s.active = .isr) :
    s.errorFlags ≤ (enterService s).errorFlags := by
  have hrun : s.errorFlags ≤ (runAgent .isr s.picks (s.setIsr (.snapshot []))).errorFlags :=
    errorFlags_le_runAgent_isr s.picks (s.setIsr (.snapshot []))
  simpa [enterService, runTurn, h] using hrun

theorem errorFlags_le_gatedService {s : State} (h : s.active = .isr) :
    s.errorFlags ≤ (gatedService s).errorFlags := by
  unfold gatedService
  split
  · exact le_rfl
  · exact errorFlags_le_enterService h
  · exact le_rfl

/-- A request of SERVICE runs in the ISR's turn, or it is rejected. -/
theorem errorFlags_le_execService {s t : State} (h : execService s = .next t) : s.errorFlags ≤ t.errorFlags := by
  unfold execService at h
  rcases accept_cases 0x40#8 s _ with ⟨ha, he⟩ | ⟨-, -, he⟩ | ⟨-, f, he⟩
  · obtain ⟨hisr, -⟩ := isr_of_admits s ha
    rw [← Host.Outcome.next.inj (he.symm.trans h)]
    split
    · exact errorFlags_le_enterService hisr
    · exact errorFlags_le_gatedService hisr
  · rw [← Host.Outcome.next.inj (he.symm.trans h)]
    exact errorFlags_le_of_scalars (rejectIllegal_scalars _ s)
  · cases he.symm.trans h

/-- A request of START runs in a caller's turn, or it is rejected and clears nothing. -/
theorem errorFlags_le_execStart {s t : State} (h : execStart s = .next t) :
    s.errorFlags ≤ t.errorFlags ∨ ∃ n, s.active = .caller n := by
  unfold execStart at h
  rcases accept_cases 0x30#8 s _ with ⟨ha, -⟩ | ⟨-, -, he⟩ | ⟨-, f, he⟩
  · obtain ⟨n, hn, -⟩ := caller_of_admits _ s ha (by decide)
    exact .inr ⟨n, hn⟩
  · rw [← Host.Outcome.next.inj (he.symm.trans h)]
    exact .inl (errorFlags_le_of_scalars (rejectIllegal_scalars _ s))
  · cases he.symm.trans h

/-- A request clears no error flag, or it is a caller's START. -/
theorem errorFlags_le_exec {i : Instr} {s t : State} (h : exec i s = .next t) :
    s.errorFlags ≤ t.errorFlags ∨ i = .start ∧ ∃ n, s.active = .caller n := by
  by_cases hstart : i = .start
  · subst hstart
    exact (errorFlags_le_execStart h).imp id fun hn => ⟨rfl, hn⟩
  · by_cases hservice : i = .service
    · subst hservice
      exact .inl (errorFlags_le_execService h)
    · exact .inl (errorFlags_le_of_scalars (exec_scalars h hstart hservice))

/-! ### One step of the machine -/

/-- Advancing an agent clears no error flag, or the agent is a caller whose START still has S2 before it. -/
theorem errorFlags_le_runAgent (a : Agent) (ps : List Nat) (s : State) :
    s.errorFlags ≤ (runAgent a ps s).errorFlags
    ∨ ∃ n, a = .caller n ∧ (s.callerOp n = some (.start .s1) ∨ s.callerOp n = some (.start .s2)) := by
  cases a with
  | caller n =>
    by_cases hs : s.pastS2 n
    · exact .inl (errorFlags_le_of_scalars (stepsPastS2_runAgent ps hs).1)
    · exact .inr ⟨n, rfl, by simpa only [State.pastS2, ne_eq, not_and_or, not_not] using hs⟩
  | isr => exact .inl (errorFlags_le_runAgent_isr ps s)
  | line => exact .inl (by rw [runAgent_of_idle .line ps s rfl])

/-- A turn clears no error flag, or it is one that may take START's S2. -/
theorem errorFlags_le_step {s t : State} (h : step s = .next t) : s.errorFlags ≤ t.errorFlags ∨ s.nextIsStart := by
  match hs : s.schedule with
  | [] =>
    obtain rfl : s = t := by simpa [step, fetch, hs] using h
    exact .inl le_rfl
  | .advance a ps :: rest =>
    obtain rfl : runTurn (latch a ps rest s) = t := by simpa [step, fetch, hs] using h
    refine (errorFlags_le_runAgent a ps (latch a ps rest s)).imp id ?_
    rintro ⟨n, rfl, hop⟩
    exact .inr ⟨n, ps, rest, hs, hop⟩
  | .issue a bytes ps :: rest =>
    cases hd : decodeRequest bytes with
    | ok i =>
      rw [step_of_decoded hs hd] at h
      refine (errorFlags_le_exec h).imp id ?_
      rintro ⟨rfl, n, hn⟩
      obtain rfl : a = .caller n := hn
      exact .inl ⟨n, bytes, ps, rest, hs, hd⟩
    | error e =>
      rw [step_of_refused hs hd] at h
      rw [refuseRequest_next e _ t h]
      exact .inl (errorFlags_le_of_scalars (rejectIllegal_scalars _ (latch a ps rest s)))

/-- Settles O46: every micro-step but START's S2 keeps each set flag set; a turn without a START before S3 takes no S2;
RXERR and TXERR touch no driver scalar. -/
theorem stickyFlagsClearedOnlyByStart : Obligations.StickyFlagsClearedOnlyByStart := by
  refine ⟨fun a p s h => (errorFlags_le_microStep a p s).resolve_left (not_errorFlags_le h),
    fun s t hstep h => (errorFlags_le_step hstep).resolve_left (not_errorFlags_le h), fun s t h => ?_⟩
  have hscalars : t.scalars = s.scalars := h.elim (exec_scalars · nofun nofun) (exec_scalars · nofun nofun)
  simpa [State.scalars, State.errorFlags] using congrArg Prod.snd hscalars

end Sys2Proof.Machine
end

section
/-! The decoder and the encoder are inverse on well-formed requests (30_encoding.md rules R80, R82 to R89, R95): the opcode
byte alone selects how the operand bytes are read, and each operand field is read back as it was written. -/

namespace Sys2Proof.Machine

/-! ### The operand fields -/

/-- The four bytes of a word, put together again. -/
theorem append_extracted_bytes (w : Word) :
    w.extractLsb' 24 8 ++ w.extractLsb' 16 8 ++ w.extractLsb' 8 8 ++ w.extractLsb' 0 8 = w := by
  have h3 : w.extractLsb' 24 8 ++ w.extractLsb' 16 8 = w.extractLsb' 16 (8 + 8) :=
    BitVec.extractLsb'_append_extractLsb'_eq_extractLsb' rfl
  have h2 : w.extractLsb' 16 (8 + 8) ++ w.extractLsb' 8 8 = w.extractLsb' 8 (8 + 8 + 8) :=
    BitVec.extractLsb'_append_extractLsb'_eq_extractLsb' rfl
  have h1 : w.extractLsb' 8 (8 + 8 + 8) ++ w.extractLsb' 0 8 = w.extractLsb' 0 (8 + 8 + 8 + 8) :=
    BitVec.extractLsb'_append_extractLsb'_eq_extractLsb' rfl
  rw [h3, h2, h1]
  exact BitVec.extractLsb'_eq_self

/-- Four bytes put together, taken apart again. -/
theorem wordBytes_append (b0 b1 b2 b3 : Byte) : wordBytes (b3 ++ b2 ++ b1 ++ b0) = [b0, b1, b2, b3] := by
  have h0 : (b3 ++ b2 ++ b1 ++ b0).extractLsb' 0 8 = b0 := BitVec.extractLsb'_append_eq_right
  have h1 : (b3 ++ b2 ++ b1 ++ b0).extractLsb' 8 8 = b1 :=
    (BitVec.extractLsb'_append_eq_of_le (by decide)).trans BitVec.extractLsb'_append_eq_right
  have h2 : (b3 ++ b2 ++ b1 ++ b0).extractLsb' 16 8 = b2 :=
    (BitVec.extractLsb'_append_eq_of_le (by decide)).trans
      ((BitVec.extractLsb'_append_eq_of_le (by decide)).trans BitVec.extractLsb'_append_eq_right)
  have h3 : (b3 ++ b2 ++ b1 ++ b0).extractLsb' 24 8 = b3 :=
    (BitVec.extractLsb'_append_eq_of_le (by decide)).trans
      ((BitVec.extractLsb'_append_eq_of_le (by decide)).trans BitVec.extractLsb'_append_eq_left)
  rw [wordBytes, h0, h1, h2, h3]

@[simp] theorem withByte_cons (op b : Byte) (bs : List Byte) (k : Byte → List Byte → Decoded) :
    withByte op (b :: bs) k = k b bs := rfl

@[simp] theorem withWord_wordBytes (op : Byte) (w : Word) (bs : List Byte) (k : Word → List Byte → Decoded) :
    withWord op (wordBytes w ++ bs) k = k w bs := by
  simp only [wordBytes, List.cons_append, List.nil_append, withWord, append_extracted_bytes]

@[simp] theorem withWord_wordBytes_append (op : Byte) (w : Word) (cs bs : List Byte)
    (k : Word → List Byte → Decoded) : withWord op (wordBytes w ++ cs ++ bs) k = k w (cs ++ bs) := by
  rw [List.append_assoc, withWord_wordBytes]

/-- An operand of fewer than 8 bits, written in one byte, is read back. -/
theorem withSmall_setWidth {w : Nat} (hw : w ≤ 8) (op : Byte) (v : BitVec w) (bs : List Byte)
    (k : BitVec w → List Byte → Decoded) : withSmall w op (v.setWidth 8 :: bs) k = k v bs := by
  have hv : (v.setWidth 8).toNat = v.toNat := by rw [BitVec.toNat_setWidth_of_le hw]
  rw [withSmall, withByte_cons, if_pos (hv ▸ v.isLt), BitVec.setWidth_setWidth_of_le v hw, BitVec.setWidth_eq]

theorem withByte_ok {op : Byte} {bs : List Byte} {k : Byte → List Byte → Decoded} {x : Instr × List Byte}
    (h : withByte op bs k = .ok x) : ∃ b r, bs = b :: r ∧ k b r = .ok x := by
  cases bs with
  | nil => cases h
  | cons b r => exact ⟨b, r, rfl, h⟩

theorem withWord_ok {op : Byte} {bs : List Byte} {k : Word → List Byte → Decoded} {x : Instr × List Byte}
    (h : withWord op bs k = .ok x) : ∃ w r, bs = wordBytes w ++ r ∧ k w r = .ok x := by
  unfold withWord at h
  split at h
  · next b0 b1 b2 b3 r => exact ⟨_, r, by rw [wordBytes_append]; rfl, h⟩
  · cases h

theorem withSmall_ok {w : Nat} {op : Byte} (hw : w ≤ 8) {bs : List Byte} {k : BitVec w → List Byte → Decoded}
    {x : Instr × List Byte} (h : withSmall w op bs k = .ok x) :
    ∃ v r, bs = BitVec.setWidth 8 v :: r ∧ k v r = .ok x := by
  obtain ⟨b, r, rfl, hr⟩ := withByte_ok h
  split at hr
  · next hb =>
    refine ⟨b.setWidth w, r, ?_, hr⟩
    rw [BitVec.eq_of_toNat_eq (x := (b.setWidth w).setWidth 8) (y := b)]
    rw [BitVec.toNat_setWidth_of_le hw, BitVec.toNat_setWidth, Nat.mod_eq_of_lt hb]
  · cases hr

/-! ### The bytes after the opcode byte -/

/-- How the bytes `bs` after the opcode byte of `i` are read: the operands that `i` itself holds play no part. -/
def readOperands (i : Instr) (bs : List Byte) : Decoded :=
  match i with
  | .rd8 _ => withWord 0x10#8 bs fun a r => .ok (.rd8 a, r)
  | .rd16 _ => withWord 0x11#8 bs fun a r => .ok (.rd16 a, r)
  | .rd32 _ => withWord 0x12#8 bs fun a r => .ok (.rd32 a, r)
  | .wr8 _ _ => withWord 0x18#8 bs fun a r => withWord 0x18#8 r fun d r => .ok (.wr8 a d, r)
  | .wr16 _ _ => withWord 0x19#8 bs fun a r => withWord 0x19#8 r fun d r => .ok (.wr16 a d, r)
  | .wr32 _ _ => withWord 0x1A#8 bs fun a r => withWord 0x1A#8 r fun d r => .ok (.wr32 a d, r)
  | .qenq sel _ => withByte (queueOpcode sel 0#8) bs fun b r => .ok (.qenq sel b, r)
  | .writeb _ _ => decodeWriteb 0x32#8 bs
  | .readb _ => withWord 0x33#8 bs fun n r => .ok (.readb n, r)
  | .readnb _ => withWord 0x34#8 bs fun n r => .ok (.readnb n, r)
  | .lflags _ _ => withSmall 3 0x50#8 bs fun m r => withSmall 3 0x50#8 r fun v r => .ok (.lflags m v, r)
  | .lrxdata _ => withByte 0x51#8 bs fun b r => .ok (.lrxdata b, r)
  | .lpeek _ => withSmall 2 0x52#8 bs fun k r => .ok (.lpeek k, r)
  | .lpoke _ _ => withSmall 2 0x53#8 bs fun k r => withByte 0x53#8 r fun b r => .ok (.lpoke k b, r)
  | i => .ok (i, bs)

/-- The opcode byte of an operation selects how its operands are read (rule R89). -/
theorem decode_opcode (i : Instr) (bs : List Byte) : decode (i.opcode :: bs) = readOperands i bs := by
  cases i with simp only [readOperands, Instr.opcode, decode, opClass, decodeBus, decodeQueue, decodeDriver, decodeService,
    decodeLine, opWidthCode, opFn, BitVec.reduceExtractLsb', BitVec.reduceToNat, BitVec.reduceGetLsb, Bool.false_eq_true,
    if_false]
  | qenq sel b => cases sel <;> rfl
  | qdeq sel => cases sel <;> rfl
  | qfull sel => cases sel <;> rfl
  | qempty sel => cases sel <;> rfl
  | qlen sel => cases sel <;> rfl

theorem decodeWriteb_operands (len : Word) (bytes rest : List Byte) (h : bytes.length = len.toNat) :
    decodeWriteb 0x32#8 (wordBytes len ++ bytes ++ rest) = .ok (.writeb len bytes, rest) := by
  rw [decodeWriteb, withWord_wordBytes_append, ← h, if_pos (by simp), List.take_left, List.drop_left]

theorem decodeWriteb_ok {bs rest : List Byte} {i : Instr} (h : decodeWriteb 0x32#8 bs = .ok (i, rest)) :
    ∃ len bytes, i = .writeb len bytes ∧ bytes.length = len.toNat ∧ bs = wordBytes len ++ bytes ++ rest := by
  obtain ⟨len, r, rfl, hr⟩ := withWord_ok h
  split at hr
  · next hlen =>
    cases hr
    exact ⟨len, _, rfl, by simpa using hlen, by simp⟩
  · cases hr

/-- The operand bytes of a well-formed operation are read back as its operands. -/
theorem readOperands_operandBytes (i : Instr) (rest : List Byte) (h : i.wellFormed = true) :
    readOperands i (i.operandBytes ++ rest) = .ok (i, rest) := by
  cases i with dsimp only [readOperands, Instr.operandBytes]
  | writeb len bytes => exact decodeWriteb_operands len bytes rest (by simpa [Instr.wellFormed] using h)
  | lflags m v =>
    exact (withSmall_setWidth (by decide) _ m _ _).trans (withSmall_setWidth (by decide) _ v _ _)
  | lpeek k => exact withSmall_setWidth (by decide) _ k _ _
  | lpoke k b => exact withSmall_setWidth (by decide) _ k _ _
  | _ => simp

/-- Operand bytes that are read are those of the operation they are read as, which is well-formed. -/
theorem readOperands_ok {i j : Instr} {bs rest : List Byte} (h : readOperands i bs = .ok (j, rest)) :
    j.wellFormed = true ∧ j.opcode = i.opcode ∧ bs = j.operandBytes ++ rest := by
  cases i with dsimp only [readOperands] at h
  | rd8 a | rd16 a | rd32 a | readb n | readnb n =>
    obtain ⟨a, r, rfl, h1⟩ := withWord_ok h
    cases h1
    exact ⟨rfl, rfl, rfl⟩
  | wr8 a v | wr16 a v | wr32 a v =>
    obtain ⟨a, r, rfl, h1⟩ := withWord_ok h
    obtain ⟨d, r, rfl, h2⟩ := withWord_ok h1
    cases h2
    exact ⟨rfl, rfl, (List.append_assoc _ _ _).symm⟩
  | qenq sel b | lrxdata b =>
    obtain ⟨b, r, rfl, h1⟩ := withByte_ok h
    cases h1
    exact ⟨rfl, rfl, rfl⟩
  | writeb len bytes =>
    obtain ⟨len, bytes, rfl, hlen, rfl⟩ := decodeWriteb_ok h
    exact ⟨by simpa [Instr.wellFormed] using hlen, rfl, rfl⟩
  | lflags m v =>
    obtain ⟨m, r, rfl, h1⟩ := withSmall_ok (by decide) h
    obtain ⟨v, r, rfl, h2⟩ := withSmall_ok (by decide) h1
    cases h2
    exact ⟨rfl, rfl, rfl⟩
  | lpeek k =>
    obtain ⟨k, r, rfl, h1⟩ := withSmall_ok (by decide) h
    cases h1
    exact ⟨rfl, rfl, rfl⟩
  | lpoke k b =>
    obtain ⟨k, r, rfl, h1⟩ := withSmall_ok (by decide) h
    obtain ⟨b, r, rfl, h2⟩ := withByte_ok h1
    cases h2
    exact ⟨rfl, rfl, rfl⟩
  | _ =>
    cases h
    exact ⟨rfl, rfl, rfl⟩

/-- Settles O1: the opcode byte selects the reading of the operands, which takes each field off the bytes it was written
as and leaves the rest. -/
theorem decodeOfEncodeIsTheRequest : Obligations.DecodeOfEncodeIsTheRequest := by
  intro i rest h
  rw [encode, List.cons_append, decode_opcode]
  exact readOperands_operandBytes i rest h

/-- Settles O2: a byte string that decodes starts with a byte of rule R89's map, an operation's opcode byte, and its
operands are read without loss. -/
theorem decodedBytesAreTheEncoding : Obligations.DecodedBytesAreTheEncoding := by
  intro bs i rest h
  cases bs with
  | nil => cases h
  | cons op bs =>
    cases hl : legalOpcode op with
    | false => cases (decode_of_illegal bs hl).symm.trans h
    | true =>
      obtain ⟨j, rfl⟩ := exists_opcode_of_legal hl
      rw [decode_opcode] at h
      obtain ⟨hwf, hop, rfl⟩ := readOperands_ok h
      exact ⟨hwf, by rw [encode, hop]; rfl⟩

/-- The whole byte image of a well-formed request is read as that request (rule R95). -/
theorem decodeRequest_encode (i : Instr) (h : i.wellFormed = true) : decodeRequest (encode i) = .ok i := by
  have hd := decodeOfEncodeIsTheRequest i [] h
  rw [List.append_nil] at hd
  simp only [decodeRequest, hd]

/-- Settles O3: each sample is the byte image of its operation, and byte images decode to what they are images of. -/
theorem sampleRequestsDecode : Obligations.SampleRequestsDecode :=
  ⟨decodeRequest_encode (.wr16 0x1000#32 0xFFFF#32) rfl, decodeRequest_encode (.qempty .tx) rfl,
    decodeRequest_encode (.readnb 5#32) rfl, decodeRequest_encode .service rfl,
    decodeRequest_encode (.lpoke 1#2 0x1F#8) rfl⟩

end Sys2Proof.Machine
end

section
/-! One turn of the machine (00_scope.md rule R17, log entry 1): a request is issued, or nothing is, and then the agent
takes the micro-steps granted to the turn. -/

namespace Sys2Proof.Machine

/-! ### A request before its micro-steps -/

/-- The active caller's part of a request; no other agent has one. -/
def asCaller (f : Nat → State → State) (s : State) : State :=
  match s.active with
  | .caller n => f n s
  | .isr => s
  | .line => s

/-- V0 of SERVICE (rules R180, R181), before the first micro-step. -/
def issueService (s : State) : State :=
  if s.gie then s.setIsr (.snapshot [])
  else match s.cfg.gatedService with
    | .ignore => s.answer .isr .ack
    | .run => s.setIsr (.snapshot [])
    | .fault => s.raiseFault .isr 0x40#8 .gatedService

/-- The state in which an admitted request has been issued and no micro-step of it taken: an operation of a single step is
over, any other is in flight (log entry 8). -/
def issue (i : Instr) (s : State) : State :=
  match i with
  | .rd8 addr => s.answer s.active (.rdata (memRead addr 1 s))
  | .rd16 addr => asCaller (fun n s => s.setCaller n (.busRead addr 2 [])) s
  | .rd32 addr => asCaller (fun n s => s.setCaller n (.busRead addr 4 [])) s
  | .wr8 addr wdata => (memWrite addr 1 wdata s).answer s.active .ack
  | .wr16 addr wdata => asCaller (fun n s => s.setCaller n (.busWrite addr 2 wdata [])) s
  | .wr32 addr wdata => asCaller (fun n s => s.setCaller n (.busWrite addr 4 wdata [])) s
  | .qenq sel data => queueRequest (queueOpcode sel 0#8)
      (fun s => (enqState sel data s).answer s.active (.qres (enqAnswer sel s))) s
  | .qdeq sel => queueRequest (queueOpcode sel 1#8)
      (fun s => (deqState sel s).answer s.active (deqResponse sel s)) s
  | .qfull sel => queueRequest (queueOpcode sel 2#8) (fun s => s.answer s.active (.flag (queueFull sel s))) s
  | .qempty sel => queueRequest (queueOpcode sel 3#8) (fun s => s.answer s.active (.flag (queueEmpty sel s))) s
  | .qlen sel => queueRequest (queueOpcode sel 4#8)
      (fun s => s.answer s.active (.count (countResult (queueLen sel s)))) s
  | .start => asCaller (fun n s => s.setCaller n (.start .s1)) s
  | .stop => asCaller (fun n s => s.setCaller n (.stop .t1)) s
  | .writeb _ bytes => asCaller (fun n s => loopWriteb n bytes 0 s) s
  | .readb count => asCaller (fun n s => loopReadb n count.toNat [] s) s
  | .readnb count => asCaller (fun n s => loopReadnb n count.toNat [] s) s
  | .rxlen => queueRequest 0x35#8 (fun s => s.answer s.active (.count (countResult (queueLen .rx s)))) s
  | .txlen => queueRequest 0x36#8 (fun s => s.answer s.active (.count (countResult (queueLen .tx s)))) s
  | .totalrx => s.answer s.active (.total s.bytesReceived)
  | .rxerr => s.answer s.active (.flag s.receiveError)
  | .txerr => s.answer s.active (.flag s.transmitError)
  | .service => issueService s
  | .lflags m v => { s with store := s.store.write 0 (driveFlags (s.store.read 0) m v) }.answer s.active .ack
  | .lrxdata b => { s with store := s.store.write 2 b }.answer s.active .ack
  | .lpeek k => s.answer s.active (.lbyte (lineRead k s))
  | .lpoke k b => (lineWrite k b s).answer s.active .ack

/-- A request of a single step leaves its agent idle, so that the granted micro-steps are not taken. -/
theorem accept_single_step {op : Byte} {s : State} {run : State → State} (h : s.admits op = true)
    (hidle : (run s).agentIdle s.active = true) : accept op s run = .next (runAgent s.active s.picks (run s)) := by
  rw [accept_of_admits op s run h, runAgent_of_idle _ _ _ hidle]

theorem agentIdle_queueRequest {op : Byte} {act : State → State} {s : State}
    (hact : (act s).agentIdle s.active = true) : (queueRequest op act s).agentIdle s.active = true := by
  unfold queueRequest
  split
  · exact agentIdle_raiseFault _ _ _ s
  · exact hact

theorem enterLoop_eq_runAgent {op : Byte} {s : State} {loop : Nat → State → State} (h : s.admits op = true)
    (hactive : ∀ n, (loop n s).active = s.active) (hpicks : ∀ n, (loop n s).picks = s.picks) :
    enterLoop loop s = runAgent s.active s.picks (asCaller loop s) := by
  have hidle := idle_of_admits op s h
  cases hn : s.active with simp only [enterLoop, asCaller, hn]
  | caller n => rw [runTurn, hactive, hpicks, hn]
  | isr => rw [runAgent_of_idle _ _ _ (hn ▸ hidle)]
  | line => rw [runAgent_of_idle _ _ _ (hn ▸ hidle)]

theorem launch_eq_runAgent {op : Byte} {s : State} (c : CallerOp) (h : s.admits op = true) :
    launch c s = runAgent s.active s.picks (asCaller (fun n s => s.setCaller n c) s) :=
  enterLoop_eq_runAgent (loop := fun n s => s.setCaller n c) h (fun _ => rfl) (fun _ => rfl)

theorem loopWriteb_picks (n : Nat) (bytes : List Byte) (i : Nat) (s : State) :
    (loopWriteb n bytes i s).picks = s.picks := by
  unfold loopWriteb
  split <;> rfl

theorem loopReadb_picks (n count : Nat) (out : List Byte) (s : State) :
    (loopReadb n count out s).picks = s.picks := by
  unfold loopReadb
  split <;> rfl

theorem loopReadnb_picks (n count : Nat) (out : List Byte) (s : State) :
    (loopReadnb n count out s).picks = s.picks := by
  unfold loopReadnb
  split <;> rfl

theorem execService_eq_runAgent {s : State} (h : s.admits 0x40#8 = true) :
    execService s = .next (runAgent s.active s.picks (issueService s)) := by
  obtain ⟨hisr, -⟩ := isr_of_admits s h
  have hrun : enterService s = runAgent .isr s.picks (s.setIsr (.snapshot [])) := by
    rw [enterService, runTurn, setIsr_active, setIsr_picks, hisr]
  rw [execService, accept_of_admits _ s _ h, hisr]
  cases hg : s.gie with simp only [issueService, hg, if_true, Bool.false_eq_true, if_false]
  | true => rw [hrun]
  | false =>
    cases hp : s.cfg.gatedService with simp only [gatedService, hp]
    | ignore => rw [runAgent_of_idle _ _ _ (agentIdle_answer _ _ s)]
    | run => rw [hrun]
    | fault => rw [runAgent_of_idle _ _ _ (agentIdle_raiseFault _ _ _ s)]

/-- An admitted request is its issue, followed by the micro-steps granted to the turn. -/
theorem exec_eq_runAgent (i : Instr) (s : State) (h : s.admits i.opcode = true) :
    exec i s = .next (runAgent s.active s.picks (issue i s)) := by
  cases i with
  | rd16 | rd32 | wr16 | wr32 | start | stop =>
    exact (accept_of_admits _ s _ h).trans (congrArg _ (launch_eq_runAgent _ h))
  | writeb len bytes =>
    exact (accept_of_admits _ s _ h).trans (congrArg _ (enterLoop_eq_runAgent h
      (fun n => loopWriteb_active n bytes 0 s) (fun n => loopWriteb_picks n bytes 0 s)))
  | readb count =>
    exact (accept_of_admits _ s _ h).trans (congrArg _ (enterLoop_eq_runAgent h
      (fun n => loopReadb_active n _ _ s) (fun n => loopReadb_picks n _ _ s)))
  | readnb count =>
    exact (accept_of_admits _ s _ h).trans (congrArg _ (enterLoop_eq_runAgent h
      (fun n => loopReadnb_active n _ _ s) (fun n => loopReadnb_picks n _ _ s)))
  | qenq | qdeq | qfull | qempty | qlen | rxlen | txlen =>
    exact accept_single_step h (agentIdle_queueRequest (agentIdle_answer _ _ _))
  | service => exact execService_eq_runAgent h
  | rd8 a => exact accept_single_step (run := issue (.rd8 a)) h (agentIdle_answer _ _ _)
  | wr8 a v => exact accept_single_step (run := issue (.wr8 a v)) h (agentIdle_answer _ _ _)
  | totalrx => exact accept_single_step (run := issue (.totalrx)) h (agentIdle_answer _ _ _)
  | rxerr => exact accept_single_step (run := issue (.rxerr)) h (agentIdle_answer _ _ _)
  | txerr => exact accept_single_step (run := issue (.txerr)) h (agentIdle_answer _ _ _)
  | lflags m v => exact accept_single_step (run := issue (.lflags m v)) h (agentIdle_answer _ _ _)
  | lrxdata b => exact accept_single_step (run := issue (.lrxdata b)) h (agentIdle_answer _ _ _)
  | lpeek k => exact accept_single_step (run := issue (.lpeek k)) h (agentIdle_answer _ _ _)
  | lpoke k b => exact accept_single_step (run := issue (.lpoke k b)) h (agentIdle_answer _ _ _)

/-- The meaning of an operation is admission of its opcode byte, its issue and the granted micro-steps. -/
theorem exec_cases (i : Instr) (s : State) :
    (s.admits i.opcode = true ∧ exec i s = .next (runAgent s.active s.picks (issue i s)))
    ∨ (s.activeReady = true ∧ permitted s.cfg s.active i.opcode = false
        ∧ exec i s = .next (rejectIllegal i.opcode s))
    ∨ (s.activeReady = false ∧ ∃ f, exec i s = .fault f) := by
  obtain ⟨run, hrun⟩ := exec_is_accept i
  rcases accept_cases i.opcode s run with ⟨h, -⟩ | ⟨hr, hp, he⟩ | ⟨hr, f, he⟩
  · exact .inl ⟨h, exec_eq_runAgent i s h⟩
  · exact .inr (.inl ⟨hr, hp, (hrun s).trans he⟩)
  · exact .inr (.inr ⟨hr, f, (hrun s).trans he⟩)

/-! ### The beginning of a turn -/

/-- How a turn begins at the state with the turn taken: an agent goes on with what it has in flight, an admitted request
is issued, or an illegal one is rejected. -/
inductive Begins (s : State) : State → Prop
  | goesOn : Begins s s
  | issues (i : Instr) (h : s.admits i.opcode = true) : Begins s (issue i s)
  | rejects (op : Byte) (h : s.activeReady = true) : Begins s (rejectIllegal op s)

theorem present_next {s t : State} {k : State → Host.Outcome State Fault Refusal} (h : present s k = .next t) :
    s.activeReady = true ∧ k s = .next t := by
  unfold present at h
  split at h
  · next he =>
    split at h
    · next hi => exact ⟨by simp [State.activeReady, he, hi], h⟩
    · cases h
  · cases h

theorem agentIdle_rejectIllegal (op : Byte) (s : State) : (rejectIllegal op s).agentIdle s.active = true :=
  agentIdle_raiseFault _ _ _ s

theorem refuseRequest_next_begins {e : DecodeError} {s t : State} (h : refuseRequest e s = .next t) :
    Begins s t ∧ t.agentIdle s.active = true := by
  obtain ⟨hr, -⟩ := present_next h
  rw [refuseRequest_next e s t h]
  exact ⟨.rejects _ hr, agentIdle_rejectIllegal _ s⟩

theorem exec_next_begins {i : Instr} {s t : State} (h : exec i s = .next t) :
    ∃ u, Begins s u ∧ t = runAgent s.active s.picks u := by
  rcases exec_cases i s with ⟨ha, he⟩ | ⟨hr, -, he⟩ | ⟨-, f, he⟩
  · exact ⟨_, .issues i ha, Host.Outcome.next.inj (h.symm.trans he)⟩
  · refine ⟨_, .rejects i.opcode hr, ?_⟩
    rw [runAgent_of_idle _ _ _ (agentIdle_rejectIllegal _ s)]
    exact Host.Outcome.next.inj (h.symm.trans he)
  · cases he.symm.trans h

theorem step_of_no_turn {s : State} (hs : s.schedule = []) : step s = .next s := by
  simp [step, fetch, hs]

theorem step_of_advance {s : State} {a : Agent} {ps : List Nat} {rest : List Turn}
    (hs : s.schedule = .advance a ps :: rest) : step s = .next (runAgent a ps (latch a ps rest s)) := by
  simp [step, fetch, hs, runTurn]

/-- A step takes no turn, or the turn's agent begins it and takes the micro-steps granted. -/
theorem step_cases {s t : State} (h : step s = .next t) :
    (s.schedule = [] ∧ t = s)
    ∨ ∃ a ps rest u, s.nextAgent = some a ∧ Begins (latch a ps rest s) u ∧ t = runAgent a ps u := by
  match hs : s.schedule with
  | [] => exact .inl ⟨rfl, Host.Outcome.next.inj (h.symm.trans (step_of_no_turn hs))⟩
  | .advance a ps :: rest =>
    refine .inr ⟨a, ps, rest, _, by simp [State.nextAgent, hs], .goesOn, ?_⟩
    exact Host.Outcome.next.inj (h.symm.trans (step_of_advance hs))
  | .issue a bytes ps :: rest =>
    have hnext : s.nextAgent = some a := by simp [State.nextAgent, hs]
    cases hd : decodeRequest bytes with
    | ok i =>
      rw [step_of_decoded hs hd] at h
      obtain ⟨u, hu, ht⟩ := exec_next_begins h
      exact .inr ⟨a, ps, rest, u, hnext, hu, ht⟩
    | error e =>
      rw [step_of_refused hs hd] at h
      obtain ⟨hb, hidle⟩ := refuseRequest_next_begins h
      exact .inr ⟨a, ps, rest, t, hnext, hb, (runAgent_of_idle _ _ _ hidle).symm⟩

/-! ### What the schedule does -/

/-- Settles O4: the turn is latched and the decoded request runs at that state. -/
theorem stepRunsTheDecodedRequest : Obligations.StepRunsTheDecodedRequest :=
  fun _ _ _ _ _ _ hs hd => step_of_decoded hs hd

/-- Settles O5: an advance turn runs its agent for its picks, and a step without a turn is the identity. -/
theorem stepAdvancesTheAgent : Obligations.StepAdvancesTheAgent :=
  ⟨fun _ _ _ _ _ hs => step_of_advance hs, fun _ _ _ hs => step_of_advance hs, fun _ hs => step_of_no_turn hs⟩

/-- Settles O7: the admission of a request that is not the agent's own rejects it, and its agent is idle. -/
theorem forbiddenClassRecordsFaultOnly : Obligations.ForbiddenClassRecordsFaultOnly := by
  intro i s hr hp
  obtain ⟨run, hrun⟩ := exec_is_accept i
  rw [hrun, accept_of_forbidden _ _ _ hr hp, rejectIllegal_of_ready _ _ hr]

/-- Settles O8: admission looks at the agent before anything else. -/
theorem requestOfAbsentOrBusyAgentStops : Obligations.RequestOfAbsentOrBusyAgentStops := by
  intro i s
  obtain ⟨run, hrun⟩ := exec_is_accept i
  rw [hrun, accept, present]
  refine ⟨fun habsent => by simp [habsent], fun hexists hbusy => by simp [hexists, hbusy]⟩

/-- Settles O52: admission of a ready agent runs the request or rejects it. -/
theorem everyRequestOfAReadyAgentGoesOn : Obligations.EveryRequestOfAReadyAgentGoesOn := by
  intro i s hr
  rcases exec_cases i s with ⟨-, he⟩ | ⟨-, -, he⟩ | ⟨hnot, -⟩
  · exact ⟨_, he⟩
  · exact ⟨_, he⟩
  · cases hr.symm.trans hnot

end Sys2Proof.Machine
end

section
/-! What one atomic step of an agent can do, said once (00_scope.md rule R17): its part of the block changes, and the agent
stays as it is, goes on, ends with an answer or ends with a model fault. The rules over all turns follow from it. -/

namespace Sys2Proof.Machine

/-! ### The block's invariant without the agents -/

/-- The invariant of everything but the agents' sequencing state: parameters, store, queues, lifecycle and faults. -/
structure State.BlockWf (s : State) : Prop where
  cfg : s.cfg.wf = true
  store : s.storeWf = true
  queues : s.queuesWf = true
  lifecycle : s.lifecycleWf = true
  faults : s.faults.Nodup

theorem storeWf_iff (s : State) :
    s.storeWf = true ↔ s.store.wf = true ∧ Table.below 4 s.store = true ∧ s.store.read 3 = 0#8 := by
  simp only [State.storeWf, Bool.and_eq_true, decide_eq_true_eq, and_assoc]

theorem queuesWf_iff (s : State) :
    s.queuesWf = true ↔ s.rxq.wf s.cfg.qcap = true ∧ s.txq.wf s.cfg.qcap = true := by
  simp only [State.queuesWf, Bool.and_eq_true]

theorem lifecycleWf_iff (s : State) :
    s.lifecycleWf = true ↔ s.qvalid = decide (s.lifecycle ≠ .stopped) ∧ s.gie = decide (s.lifecycle = .started) := by
  simp only [State.lifecycleWf, Bool.and_eq_true, beq_iff_eq]

theorem storeWf_byteWrite (a : Addr) (v : Byte) (s : State) (h : s.storeWf = true) :
    (byteWrite a v s).storeWf = true := by
  obtain ⟨hwf, hbelow, hzero⟩ := (storeWf_iff s).mp h
  exact (storeWf_iff _).mpr ⟨wf_writeStoreByte _ _ _ hwf, below_writeStoreByte _ _ _ hbelow,
    read_three_of_softwareWrites (.single (softwareWrite_byteWrite a v s)) hzero⟩

theorem storeWf_lineWrite (k : BitVec 2) (v : Byte) (s : State) (h : s.storeWf = true) :
    (lineWrite k v s).storeWf = true := by
  obtain ⟨hwf, hbelow, hzero⟩ := (storeWf_iff s).mp h
  exact (storeWf_iff _).mpr ⟨Memory.wf_write _ _ _ hwf, Memory.below_write 4 _ _ _ hbelow k.isLt,
    read_three_lineWrite k v s hzero⟩

theorem queuesWf_setQueue {sel : QueueSel} {q : Queue} {s : State} (h : s.queuesWf = true)
    (hq : q.wf s.cfg.qcap = true) : (s.setQueue sel q).queuesWf = true := by
  obtain ⟨hrx, htx⟩ := (queuesWf_iff s).mp h
  cases sel
  · exact (queuesWf_iff _).mpr ⟨hq, htx⟩
  · exact (queuesWf_iff _).mpr ⟨hrx, hq⟩

theorem queue_wf {s : State} (h : s.queuesWf = true) (sel : QueueSel) : (s.queue sel).wf s.cfg.qcap = true := by
  obtain ⟨hrx, htx⟩ := (queuesWf_iff s).mp h
  cases sel
  · exact hrx
  · exact htx

theorem queuesWf_enqState (sel : QueueSel) (b : Byte) (s : State) (h : s.queuesWf = true) :
    (enqState sel b s).queuesWf = true := by
  rcases enqAnswer_cases sel s with ⟨-, -, he⟩ | ⟨-, hc, he⟩ | ⟨-, he⟩
  · rwa [enqState_of_not_ok _ _ _ (by simp [he])]
  · rw [enqState_of_ok _ _ _ he]
    exact queuesWf_setQueue h (Queue.wf_push _ _ _ (queue_wf h sel) hc)
  · rwa [enqState_of_not_ok _ _ _ (by simp [he])]

theorem queuesWf_deqState (sel : QueueSel) (s : State) (h : s.queuesWf = true) :
    (deqState sel s).queuesWf = true := by
  rcases deqAnswer_cases sel s with ⟨-, -, he⟩ | ⟨-, hc, he⟩ | ⟨-, he⟩
  · rwa [deqState_of_not_ok _ _ (by simp [he])]
  · rw [deqState_of_ok _ _ he]
    exact queuesWf_setQueue h (Queue.wf_pop _ _ (queue_wf h sel) hc)
  · rwa [deqState_of_not_ok _ _ (by simp [he])]

theorem queuesWf_allocateQueues {s : State} (h : s.queuesWf = true) : (allocateQueues s).queuesWf = true := by
  obtain ⟨hrx, htx⟩ := (queuesWf_iff s).mp h
  exact (queuesWf_iff _).mpr ⟨Queue.wf_construct _ _ hrx, Queue.wf_construct _ _ htx⟩

theorem nodup_addFault (f : FaultRecord) {fs : List FaultRecord} (h : fs.Nodup) : (addFault f fs).Nodup := by
  unfold addFault
  split
  · exact h
  · next hf => simpa using List.Nodup.concat hf h

/-- Two states with the same parameters, store, queues, lifecycle and gate meet the block's invariant together. -/
theorem State.BlockWf.congr {s t : State} (h : s.BlockWf) (hcfg : t.cfg = s.cfg) (hstore : t.store = s.store)
    (hrxq : t.rxq = s.rxq) (htxq : t.txq = s.txq) (hqvalid : t.qvalid = s.qvalid) (hgie : t.gie = s.gie)
    (hlife : t.lifecycle = s.lifecycle) (hfaults : t.faults.Nodup) : t.BlockWf where
  cfg := hcfg ▸ h.cfg
  store := (storeWf_iff t).mpr (hstore ▸ (storeWf_iff s).mp h.store)
  queues := (queuesWf_iff t).mpr (by rw [hcfg, hrxq, htxq]; exact (queuesWf_iff s).mp h.queues)
  lifecycle := (lifecycleWf_iff t).mpr (by rw [hqvalid, hgie, hlife]; exact (lifecycleWf_iff s).mp h.lifecycle)
  faults := hfaults

theorem State.BlockWf.answer {s : State} (h : s.BlockWf) (a : Agent) (r : Response) : (s.answer a r).BlockWf := by
  apply h.congr <;> simp [h.faults]

theorem State.BlockWf.raiseFault {s : State} (h : s.BlockWf) (a : Agent) (op : Byte) (c : FaultCode) :
    (s.raiseFault a op c).BlockWf := by
  apply h.congr <;> simp [nodup_addFault _ h.faults]

/-! ### Who holds the lifecycle -/

/-- The agent's operation in flight is at a point its rule can reach. -/
def State.agentWf (s : State) : Agent → Prop
  | .caller n => ∀ op, s.callerOp n = some op → op.wf s.lifecycle = true
  | .isr => ∀ p, s.isr = some p → p.wf = true
  | .line => True

/-- Caller `n` may move the lifecycle: it is in a START past S1 or a STOP past T1, or no such operation can be. -/
def State.mayMoveLifecycle (s : State) (n : Nat) : Prop :=
  (∃ op, s.callerOp n = some op ∧ op.holdsLifecycle = true) ∨ s.lifecycle = .stopped ∨ s.lifecycle = .started

/-- What a step of agent `a` does to the block beside the agents' sequencing state: nothing to the parameters, the agents
and the faults; the block's invariant is kept; the lifecycle moves in a step of a caller that may move it; the scalars are
counted and set by the ISR, and cleared all at once by others. -/
structure Effect (a : Agent) (s u : State) : Prop where
  cfg : u.cfg = s.cfg
  callers : u.callers = s.callers
  isr : u.isr = s.isr
  faults : u.faults = s.faults
  active : u.active = s.active
  block : s.agentWf a → s.BlockWf → u.BlockWf
  lifecycle : u.lifecycle = s.lifecycle ∨ ∃ n, a = .caller n ∧ s.mayMoveLifecycle n
  scalars : a ≠ .isr → u.scalars = s.scalars ∨ u.scalars = (0#32, false, false)

/-- One atomic step of agent `a`. -/
inductive AgentStep : Agent → State → State → Prop
  | stays (a : Agent) (s : State) : AgentStep a s s
  | answers {a : Agent} {s u : State} (r : Response) (h : Effect a s u) : AgentStep a s (u.answer a r)
  | faults (a : Agent) (s : State) (op : Byte) (c : FaultCode) : AgentStep a s (s.raiseFault a op c)
  | goesOn {n : Nat} {s u : State} (op : CallerOp) (h : Effect (.caller n) s u)
      (hpresent : s.agentExists (.caller n) = true ∨ (s.callerOp n).isSome = true)
      (hwf : s.agentWf (.caller n) → op.wf u.lifecycle = true)
      (hholds : op.holdsLifecycle = true → s.mayMoveLifecycle n) : AgentStep (.caller n) s (u.setCaller n op)
  | serves {s u : State} (p : ServicePhase) (h : Effect .isr s u) (hwf : s.agentWf .isr → p.wf = true) :
      AgentStep .isr s (u.setIsr p)

/-! ### Effects -/

/-- A step that keeps the lifecycle and the scalars. -/
theorem Effect.of_store_or_queues {s u : State} (a : Agent) (hcfg : u.cfg = s.cfg) (hcallers : u.callers = s.callers)
    (hisr : u.isr = s.isr) (hfaults : u.faults = s.faults) (hactive : u.active = s.active)
    (hqvalid : u.qvalid = s.qvalid) (hgie : u.gie = s.gie) (hlife : u.lifecycle = s.lifecycle)
    (hscalars : u.scalars = s.scalars) (hstore : s.storeWf = true → u.storeWf = true)
    (hqueues : s.queuesWf = true → u.queuesWf = true) : Effect a s u where
  cfg := hcfg
  callers := hcallers
  isr := hisr
  faults := hfaults
  active := hactive
  block := fun _ h =>
    { cfg := hcfg ▸ h.cfg
      store := hstore h.store
      queues := hqueues h.queues
      lifecycle := (lifecycleWf_iff u).mpr (by rw [hqvalid, hgie, hlife]; exact (lifecycleWf_iff s).mp h.lifecycle)
      faults := hfaults ▸ h.faults }
  lifecycle := .inl hlife
  scalars := fun _ => .inl hscalars

theorem Effect.refl (a : Agent) (s : State) : Effect a s s :=
  .of_store_or_queues a rfl rfl rfl rfl rfl rfl rfl rfl rfl id id

theorem Effect.byteWrite (a : Agent) (addr : Addr) (v : Byte) (s : State) : Effect a s (byteWrite addr v s) :=
  .of_store_or_queues a rfl rfl rfl rfl rfl rfl rfl rfl rfl (storeWf_byteWrite addr v s) id

theorem Effect.writeLane (a : Agent) (addr : Addr) (v : Word) (w : Nat) (lanes : Lanes) (pick : Nat) (s : State) :
    Effect a s (writeLane addr v w lanes pick s) :=
  .byteWrite a _ _ s

theorem Effect.memWrite_one (a : Agent) (addr : Addr) (v : Word) (s : State) : Effect a s (memWrite addr 1 v s) :=
  .byteWrite a _ _ s

theorem Effect.lineWrite (a : Agent) (k : BitVec 2) (v : Byte) (s : State) : Effect a s (lineWrite k v s) :=
  .of_store_or_queues a rfl rfl rfl rfl rfl rfl rfl rfl rfl (storeWf_lineWrite k v s) id

theorem Effect.enqState (a : Agent) (sel : QueueSel) (b : Byte) (s : State) : Effect a s (enqState sel b s) := by
  apply Effect.of_store_or_queues a (hqueues := queuesWf_enqState sel b s) <;> simp [storeWf_iff]

theorem Effect.deqState (a : Agent) (sel : QueueSel) (s : State) : Effect a s (deqState sel s) := by
  apply Effect.of_store_or_queues a (hqueues := queuesWf_deqState sel s) <;> simp [storeWf_iff]

/-- S1 (rule R151). -/
theorem Effect.allocateQueues {n : Nat} {s : State} (hs : s.lifecycle = .stopped) :
    Effect (.caller n) s (allocateQueues s) where
  cfg := rfl
  callers := rfl
  isr := rfl
  faults := rfl
  active := rfl
  block := fun _ h =>
    { cfg := h.cfg
      store := h.store
      queues := queuesWf_allocateQueues h.queues
      lifecycle := by
        obtain ⟨-, hgie⟩ := (lifecycleWf_iff s).mp h.lifecycle
        simpa [lifecycleWf_iff, hs] using hgie
      faults := h.faults }
  lifecycle := .inr ⟨n, rfl, .inr (.inl hs)⟩
  scalars := fun _ => .inl rfl

/-- S2 (rule R151). -/
theorem Effect.clearScalars (n : Nat) (s : State) : Effect (.caller n) s (clearScalars s) where
  cfg := rfl
  callers := rfl
  isr := rfl
  faults := rfl
  active := rfl
  block := fun _ h => h.congr rfl rfl rfl rfl rfl rfl rfl h.faults
  lifecycle := .inl rfl
  scalars := fun _ => .inr rfl

/-- S4 (rule R151), by the caller whose START is at it. -/
theorem Effect.openGate {n : Nat} {s : State} (hop : s.callerOp n = some (.start .s4)) :
    Effect (.caller n) s (openGate s) where
  cfg := rfl
  callers := rfl
  isr := rfl
  faults := rfl
  active := rfl
  block := fun ha h =>
    { cfg := h.cfg
      store := h.store
      queues := h.queues
      lifecycle := by
        have hlife : s.lifecycle = .starting := by simpa [CallerOp.wf] using ha _ hop
        obtain ⟨hq, -⟩ := (lifecycleWf_iff s).mp h.lifecycle
        simpa [lifecycleWf_iff, hlife] using hq
      faults := h.faults }
  lifecycle := .inr ⟨n, rfl, .inl ⟨_, hop, rfl⟩⟩
  scalars := fun _ => .inl rfl

/-- T1 (rule R152). -/
theorem Effect.closeGate {n : Nat} {s : State} (hs : s.lifecycle = .started) :
    Effect (.caller n) s (closeGate s) where
  cfg := rfl
  callers := rfl
  isr := rfl
  faults := rfl
  active := rfl
  block := fun _ h =>
    { cfg := h.cfg
      store := h.store
      queues := h.queues
      lifecycle := by
        obtain ⟨hq, -⟩ := (lifecycleWf_iff s).mp h.lifecycle
        simpa [lifecycleWf_iff, hs] using hq
      faults := h.faults }
  lifecycle := .inr ⟨n, rfl, .inr (.inr hs)⟩
  scalars := fun _ => .inl rfl

/-- T3 (rule R152), by the caller whose STOP is at it. -/
theorem Effect.destroyQueues {n : Nat} {s : State} (hop : s.callerOp n = some (.stop .t3)) :
    Effect (.caller n) s (destroyQueues s) where
  cfg := rfl
  callers := rfl
  isr := rfl
  faults := rfl
  active := rfl
  block := fun ha h =>
    { cfg := h.cfg
      store := h.store
      queues := h.queues
      lifecycle := by
        have hlife : s.lifecycle = .stopping := by simpa [CallerOp.wf] using ha _ hop
        obtain ⟨-, hgie⟩ := (lifecycleWf_iff s).mp h.lifecycle
        simpa [lifecycleWf_iff, hlife] using hgie
      faults := h.faults }
  lifecycle := .inr ⟨n, rfl, .inl ⟨_, hop, rfl⟩⟩
  scalars := fun _ => .inl rfl

/-- The ISR's steps on the scalars (rules R183, R184). -/
theorem Effect.of_isr_scalars {s u : State}
    (hu : ∃ b r t, u = { s with bytesReceived := b, receiveError := r, transmitError := t }) : Effect .isr s u := by
  obtain ⟨b, r, t, rfl⟩ := hu
  exact
    { cfg := rfl
      callers := rfl
      isr := rfl
      faults := rfl
      active := rfl
      block := fun _ h => h.congr rfl rfl rfl rfl rfl rfl rfl h.faults
      lifecycle := .inl rfl
      scalars := fun h => absurd rfl h }

theorem Effect.markError (s : State) : Effect .isr s (countReceived (flagReceiveError s)) :=
  .of_isr_scalars ⟨_, _, _, rfl⟩

theorem Effect.countReceived (s : State) : Effect .isr s (countReceived s) :=
  .of_isr_scalars ⟨_, _, _, rfl⟩

theorem Effect.flagReceiveError (s : State) : Effect .isr s (flagReceiveError s) :=
  .of_isr_scalars ⟨_, _, _, rfl⟩

theorem Effect.flagTransmitError (s : State) : Effect .isr s (flagTransmitError s) :=
  .of_isr_scalars ⟨_, _, _, rfl⟩

/-! ### The lanes of an access in flight -/

theorem lanesWf_iff (n : Nat) (lanes : Lanes) :
    lanesWf n lanes = true ↔ Table.sorted lanes = true ∧ Table.below n lanes = true ∧ lanesDone n lanes = false := by
  simp only [lanesWf, Bool.and_eq_true, Bool.not_eq_true', and_assoc]

/-- One more lane of an access that is not done; the other half `c` of the operation's condition stays. -/
theorem and_lanesWf_put {c : Bool} {n : Nat} {lanes : Lanes} {pick : Nat} {b : Byte}
    (hdone : ¬ lanesDone n (Table.put (nextLane n lanes pick) b lanes) = true) (h : (c && lanesWf n lanes) = true) :
    (c && lanesWf n (Table.put (nextLane n lanes pick) b lanes)) = true := by
  rw [Bool.and_eq_true] at h ⊢
  obtain ⟨hc, hlanes⟩ := h
  obtain ⟨hsorted, hbelow, hleft⟩ := (lanesWf_iff n lanes).mp hlanes
  exact ⟨hc, (lanesWf_iff n _).mpr ⟨Table.sorted_put _ _ _ hsorted,
    Table.below_put _ _ _ _ hbelow (nextLane_lt n lanes pick hleft), by simpa using hdone⟩⟩

/-- A half-word access begins with no lane performed. -/
theorem and_lanesWf_nil {c : Bool} (h : c = true) : (c && lanesWf 2 []) = true := by
  rw [h]
  rfl

/-! ### The steps of a caller -/

section Caller
variable {n : Nat} {s : State} {op : CallerOp}

/-- The caller of an operation in flight goes on with a step that keeps lifecycle and hold. -/
theorem agentStep_goesOn {u : State} {op' : CallerOp} (hop : s.callerOp n = some op) (h : Effect (.caller n) s u)
    (hwf : op.wf s.lifecycle = true → op'.wf u.lifecycle = true)
    (hholds : op'.holdsLifecycle = true → op.holdsLifecycle = true) :
    AgentStep (.caller n) s (u.setCaller n op') :=
  .goesOn op' h (.inr (by simp [hop])) (fun ha => hwf (ha op hop)) fun hh => .inl ⟨op, hop, hholds hh⟩

theorem agentStep_stepBusRead (pick : Nat) {a : Addr} {w : Nat} {lanes : Lanes}
    (hop : s.callerOp n = some (.busRead a w lanes)) :
    AgentStep (.caller n) s (stepBusRead pick n a w lanes s) := by
  unfold stepBusRead
  split
  · exact .answers _ (.refl _ s)
  · next hdone => exact agentStep_goesOn hop (.refl _ s) (and_lanesWf_put hdone) nofun

theorem agentStep_stepBusWrite (pick : Nat) {a : Addr} {w : Nat} {v : Word} {lanes : Lanes}
    (hop : s.callerOp n = some (.busWrite a w v lanes)) :
    AgentStep (.caller n) s (stepBusWrite pick n a w v lanes s) := by
  unfold stepBusWrite
  split
  · exact .answers _ (.writeLane _ _ _ _ _ _ s)
  · next hdone => exact agentStep_goesOn hop (.writeLane _ _ _ _ _ _ s) (and_lanesWf_put hdone) nofun

theorem agentStep_stepStart1 (pick : Nat) (hop : s.callerOp n = some (.start .s1)) :
    AgentStep (.caller n) s (stepStart1 pick n s) := by
  unfold stepStart1
  split
  · next hs =>
    split
    · exact .answers _ (.refl _ s)
    · exact .goesOn _ (.allocateQueues hs) (.inr (by simp [hop])) (fun _ => rfl) fun _ => .inr (.inl hs)
  · exact .faults _ _ _ _

theorem agentStep_stepStart3Read (pick : Nat) {lanes : Lanes} (hop : s.callerOp n = some (.start (.s3Read lanes))) :
    AgentStep (.caller n) s (stepStart3Read pick n lanes s) := by
  unfold stepStart3Read
  split
  · exact agentStep_goesOn hop (.refl _ s) (fun h => and_lanesWf_nil (Bool.and_elim_left h)) fun _ => rfl
  · next hdone => exact agentStep_goesOn hop (.refl _ s) (and_lanesWf_put hdone) fun _ => rfl

theorem agentStep_stepStart3Write (pick : Nat) {r : Word} {lanes : Lanes}
    (hop : s.callerOp n = some (.start (.s3Write r lanes))) :
    AgentStep (.caller n) s (stepStart3Write pick n r lanes s) := by
  unfold stepStart3Write
  split
  · exact agentStep_goesOn hop (.writeLane _ _ _ _ _ _ s) Bool.and_elim_left fun _ => rfl
  · next hdone => exact agentStep_goesOn hop (.writeLane _ _ _ _ _ _ s) (and_lanesWf_put hdone) fun _ => rfl

theorem agentStep_stepStart (pick : Nat) {next : StartStep} (hop : s.callerOp n = some (.start next)) :
    AgentStep (.caller n) s (stepStart pick n next s) := by
  cases next with
  | s1 => exact agentStep_stepStart1 pick hop
  | s2 => exact agentStep_goesOn hop (.clearScalars n s) and_lanesWf_nil fun _ => rfl
  | s3Read lanes => exact agentStep_stepStart3Read pick hop
  | s3Write r lanes => exact agentStep_stepStart3Write pick hop
  | s4 => exact .answers _ (.openGate hop)

theorem agentStep_stepStop1 (hop : s.callerOp n = some (.stop .t1)) : AgentStep (.caller n) s (stepStop1 n s) := by
  unfold stepStop1
  split
  · next hs =>
    exact .goesOn _ (.closeGate hs) (.inr (by simp [hop])) (fun _ => rfl) fun _ => .inr (.inr hs)
  · exact .faults _ _ _ _

theorem agentStep_stepStop2Read (pick : Nat) {lanes : Lanes} (hop : s.callerOp n = some (.stop (.t2Read lanes))) :
    AgentStep (.caller n) s (stepStop2Read pick n lanes s) := by
  unfold stepStop2Read
  split
  · exact agentStep_goesOn hop (.refl _ s) (fun h => and_lanesWf_nil (Bool.and_elim_left h)) fun _ => rfl
  · next hdone => exact agentStep_goesOn hop (.refl _ s) (and_lanesWf_put hdone) fun _ => rfl

theorem agentStep_stepStop2Write (pick : Nat) {r : Word} {lanes : Lanes}
    (hop : s.callerOp n = some (.stop (.t2Write r lanes))) :
    AgentStep (.caller n) s (stepStop2Write pick n r lanes s) := by
  unfold stepStop2Write
  split
  · exact agentStep_goesOn hop (.writeLane _ _ _ _ _ _ s) Bool.and_elim_left fun _ => rfl
  · next hdone => exact agentStep_goesOn hop (.writeLane _ _ _ _ _ _ s) (and_lanesWf_put hdone) fun _ => rfl

theorem agentStep_stepStop3 (hop : s.callerOp n = some (.stop .t3)) : AgentStep (.caller n) s (stepStop3 n s) := by
  unfold stepStop3
  split
  · exact .faults _ _ _ _
  · exact .answers _ (.destroyQueues hop)

theorem agentStep_stepStop (pick : Nat) {next : StopStep} (hop : s.callerOp n = some (.stop next)) :
    AgentStep (.caller n) s (stepStop pick n next s) := by
  cases next with
  | t1 => exact agentStep_stepStop1 hop
  | t2Read lanes => exact agentStep_stepStop2Read pick hop
  | t2Write r lanes => exact agentStep_stepStop2Write pick hop
  | t3 => exact agentStep_stepStop3 hop

section Loop
variable {u : State} (hpresent : s.agentExists (.caller n) = true ∨ (s.callerOp n).isSome = true)
  (h : Effect (.caller n) s u)
include hpresent h

theorem agentStep_loopWriteb (bytes : List Byte) (i : Nat) : AgentStep (.caller n) s (loopWriteb n bytes i u) := by
  unfold loopWriteb
  split
  · next hi => exact .goesOn _ h hpresent (fun _ => by simpa [CallerOp.wf] using hi) nofun
  · exact .answers _ h

theorem agentStep_loopReadb (count : Nat) (out : List Byte) :
    AgentStep (.caller n) s (loopReadb n count out u) := by
  unfold loopReadb
  split
  · next hi => exact .goesOn _ h hpresent (fun _ => by simpa [CallerOp.wf] using hi) nofun
  · exact .answers _ h

theorem agentStep_loopReadnb (count : Nat) (out : List Byte) :
    AgentStep (.caller n) s (loopReadnb n count out u) := by
  unfold loopReadnb
  split
  · next hi => exact .goesOn _ h hpresent (fun _ => by simpa [CallerOp.wf] using hi) nofun
  · exact .answers _ h

end Loop

theorem agentStep_stepWriteb {bytes : List Byte} {i : Nat} (hop : s.callerOp n = some (.writeb bytes i)) :
    AgentStep (.caller n) s (stepWriteb n bytes i s) := by
  unfold stepWriteb
  split
  · exact .faults _ _ _ _
  · split
    · exact agentStep_loopWriteb (.inr (by simp [hop])) (.enqState _ _ _ s) _ _
    · exact .stays _ s
    · exact .stays _ s
    · exact .answers _ (.refl _ s)

theorem agentStep_stepReadb {count : Nat} {out : List Byte} (hop : s.callerOp n = some (.readb count out)) :
    AgentStep (.caller n) s (stepReadb n count out s) := by
  unfold stepReadb
  split
  · exact .faults _ _ _ _
  · split
    · exact agentStep_loopReadb (.inr (by simp [hop])) (.deqState _ _ s) _ _
    · exact .stays _ s
    · exact .stays _ s
    · exact .answers _ (.refl _ s)

theorem agentStep_stepReadnb {count : Nat} {out : List Byte} (hop : s.callerOp n = some (.readnb count out)) :
    AgentStep (.caller n) s (stepReadnb n count out s) := by
  unfold stepReadnb
  split
  · exact .faults _ _ _ _
  · split
    · exact agentStep_loopReadnb (.inr (by simp [hop])) (.deqState _ _ s) _ _
    · exact .stays _ s
    · exact .answers _ (.refl _ s)
    · exact .answers _ (.refl _ s)

theorem agentStep_stepCaller (pick : Nat) (hop : s.callerOp n = some op) :
    AgentStep (.caller n) s (stepCaller pick n op s) := by
  cases op with
  | busRead a w lanes => exact agentStep_stepBusRead pick hop
  | busWrite a w v lanes => exact agentStep_stepBusWrite pick hop
  | start next => exact agentStep_stepStart pick hop
  | stop next => exact agentStep_stepStop pick hop
  | writeb bytes i => exact agentStep_stepWriteb hop
  | readb count out => exact agentStep_stepReadb hop
  | readnb count out => exact agentStep_stepReadnb hop

end Caller

/-! ### The steps of SERVICE -/

section Service
variable {s u : State}

/-- The ISR goes on to a phase that the same snapshot leads to. -/
theorem agentStep_serves {p q : ServicePhase} (hp : s.isr = some p) (h : Effect .isr s u)
    (hwf : p.wf = true → q.wf = true) : AgentStep .isr s (u.setIsr q) :=
  .serves q h fun ha => hwf (ha p hp)

theorem agentStep_serviceGoto (h : Effect .isr s u) (q : Option ServicePhase)
    (hwf : s.agentWf .isr → ∀ p, q = some p → p.wf = true) : AgentStep .isr s (serviceGoto q u) := by
  cases q with
  | none => exact .answers _ h
  | some p => exact .serves p h fun ha => hwf ha p rfl

theorem transmitPhase_wf {v : Half} {p : ServicePhase} (h : transmitPhase v = some p) : p.wf = true := by
  unfold transmitPhase at h
  split at h
  · next hv => cases h; exact hv
  · cases h

theorem receivePhase_wf {v : Half} {p : ServicePhase} (h : receivePhase v = some p) : p.wf = true := by
  unfold receivePhase at h
  split at h
  · next hv => cases h; exact hv
  · split at h
    · next hv => cases h; exact hv
    · exact transmitPhase_wf h

theorem agentStep_transmitPhase (h : Effect .isr s u) (v : Half) :
    AgentStep .isr s (serviceGoto (transmitPhase v) u) :=
  agentStep_serviceGoto h _ fun _ _ => transmitPhase_wf

theorem agentStep_stepSnapshot (pick : Nat) {lanes : Lanes} (hp : s.isr = some (.snapshot lanes)) :
    AgentStep .isr s (stepSnapshot pick lanes s) := by
  unfold stepSnapshot
  split
  · exact agentStep_serviceGoto (.refl _ s) _ fun _ _ => receivePhase_wf
  · next hdone => exact agentStep_serves hp (.refl _ s) (and_lanesWf_put (c := true) hdone)

theorem agentStep_stepTestFull {v : Half} {b : Byte} (hp : s.isr = some (.testFull v b)) :
    AgentStep .isr s (stepTestFull v b s) := by
  unfold stepTestFull
  split
  · exact .faults _ _ _ _
  · split <;> exact agentStep_serves hp (.refl _ s) id

theorem agentStep_stepEnqueue {v : Half} {b : Byte} (hp : s.isr = some (.enqueue v b)) :
    AgentStep .isr s (stepEnqueue v b s) := by
  unfold stepEnqueue
  split
  · exact .faults _ _ _ _
  · split
    · exact agentStep_transmitPhase (.enqState _ _ _ s) v
    all_goals exact agentStep_serves hp (.refl _ s) id

theorem agentStep_stepDequeue {v : Half} (hp : s.isr = some (.dequeue v)) : AgentStep .isr s (stepDequeue v s) := by
  unfold stepDequeue
  split
  · exact .faults _ _ _ _
  · split
    · exact agentStep_serves hp (.deqState _ _ s) and_lanesWf_nil
    · exact agentStep_serves hp (.refl _ s) id
    · exact .answers _ (.refl _ s)
    · exact agentStep_serves hp (.refl _ s) id

theorem agentStep_stepSend (pick : Nat) {v : Half} {t : Byte} {lanes : Lanes} (hp : s.isr = some (.send v t lanes)) :
    AgentStep .isr s (stepSend pick v t lanes s) := by
  unfold stepSend
  split
  · exact .answers _ (.writeLane _ _ _ _ _ _ s)
  · next hdone => exact agentStep_serves hp (.writeLane _ _ _ _ _ _ s) (and_lanesWf_put hdone)

theorem agentStep_stepService (pick : Nat) {p : ServicePhase} (hp : s.isr = some p) :
    AgentStep .isr s (stepService pick p s) := by
  cases p with
  | snapshot lanes => exact agentStep_stepSnapshot pick hp
  | markError v => exact agentStep_transmitPhase (.markError s) v
  | readData v => exact agentStep_serves hp (.refl _ s) id
  | countByte v b => exact agentStep_serves hp (.countReceived s) id
  | testFull v b => exact agentStep_stepTestFull hp
  | dropByte v b => exact agentStep_transmitPhase (.flagReceiveError s) v
  | enqueue v b => exact agentStep_stepEnqueue hp
  | enqueueFailed v b => exact agentStep_transmitPhase (.flagReceiveError s) v
  | dequeue v => exact agentStep_stepDequeue hp
  | send v t lanes => exact agentStep_stepSend pick hp
  | dequeueFailed v => exact .answers _ (.flagTransmitError s)

end Service

/-! ### Any micro-step, and the beginning of a turn -/

theorem agentStep_microStep (a : Agent) (pick : Nat) (s : State) : AgentStep a s (microStep a pick s) := by
  cases a with
  | caller n =>
    cases hop : s.callerOp n with
    | some op => simpa only [microStep, hop] using agentStep_stepCaller pick hop
    | none => simpa only [microStep, hop] using .stays _ s
  | isr =>
    cases hp : s.isr with
    | some p => simpa only [microStep, hp] using agentStep_stepService pick hp
    | none => simpa only [microStep, hp] using .stays _ s
  | line => exact .stays _ s

theorem agentStep_queueRequest {op : Byte} {act : State → State} {s : State}
    (hact : AgentStep s.active s (act s)) : AgentStep s.active s (queueRequest op act s) := by
  unfold queueRequest
  split
  · exact .faults _ _ _ _
  · exact hact

theorem agentStep_asCaller {f : Nat → State → State} {s : State} (hr : s.activeReady = true)
    (hf : ∀ n, s.agentExists (.caller n) = true → AgentStep (.caller n) s (f n s)) :
    AgentStep s.active s (asCaller f s) := by
  simp only [State.activeReady, Bool.and_eq_true] at hr
  obtain ⟨hexists, -⟩ := hr
  cases ha : s.active with simp only [asCaller, ha]
  | caller n => exact hf n (ha ▸ hexists)
  | isr => exact .stays _ s
  | line => exact .stays _ s

/-- A request put in flight that no lifecycle state excludes. -/
theorem agentStep_putInFlight {op : CallerOp} {s : State} (hr : s.activeReady = true)
    (hwf : op.wf s.lifecycle = true) (hholds : op.holdsLifecycle = false) :
    AgentStep s.active s (asCaller (fun n s => s.setCaller n op) s) :=
  agentStep_asCaller hr fun _ hexists =>
    .goesOn op (.refl _ s) (.inl hexists) (fun _ => hwf) (fun h => absurd h (by simp [hholds]))

theorem agentStep_issueService (s : State) : AgentStep .isr s (issueService s) := by
  have hserves : AgentStep .isr s (s.setIsr (.snapshot [])) := .serves _ (.refl _ s) fun _ => rfl
  unfold issueService
  split
  · exact hserves
  · split
    · exact .answers _ (.refl _ s)
    · exact hserves
    · exact .faults _ _ _ _

theorem agentStep_issue (i : Instr) {s : State} (h : s.admits i.opcode = true) :
    AgentStep s.active s (issue i s) := by
  have hr : s.activeReady = true := by
    simp only [State.admits, Bool.and_eq_true] at h
    exact h.1
  cases i with dsimp only [issue]
  | rd8 | totalrx | rxerr | txerr | lpeek => exact .answers _ (.refl _ s)
  | rd16 | rd32 | wr16 | wr32 | start | stop => exact agentStep_putInFlight hr rfl rfl
  | wr8 a v => exact .answers _ (.memWrite_one _ a v s)
  | qenq sel b =>
    refine agentStep_queueRequest ?_
    exact .answers _ (.enqState _ sel b s)
  | qdeq sel =>
    refine agentStep_queueRequest ?_
    exact .answers _ (.deqState _ sel s)
  | qfull | qempty | qlen | rxlen | txlen =>
    refine agentStep_queueRequest ?_
    exact .answers _ (.refl _ s)
  | writeb len bytes =>
    exact agentStep_asCaller hr fun n hexists => agentStep_loopWriteb (.inl hexists) (.refl _ s) _ _
  | readb count =>
    exact agentStep_asCaller hr fun n hexists => agentStep_loopReadb (.inl hexists) (.refl _ s) _ _
  | readnb count =>
    exact agentStep_asCaller hr fun n hexists => agentStep_loopReadnb (.inl hexists) (.refl _ s) _ _
  | service =>
    obtain ⟨hisr, -⟩ := isr_of_admits s h
    rw [hisr]
    exact agentStep_issueService s
  | lflags m v => exact .answers _ (.lineWrite _ 0#2 _ s)
  | lrxdata b => exact .answers _ (.lineWrite _ 2#2 b s)
  | lpoke k b => exact .answers _ (.lineWrite _ k b s)

theorem agentStep_begins {s u : State} (h : Begins s u) : AgentStep s.active s u := by
  cases h with
  | goesOn => exact .stays _ s
  | issues i h => exact agentStep_issue i h
  | rejects op h => exact .faults _ _ _ _

/-- The micro-steps of a turn are atomic steps of its agent. -/
theorem agentSteps_runAgent (a : Agent) (ps : List Nat) (s : State) :
    Relation.ReflTransGen (AgentStep a) s (runAgent a ps s) :=
  runAgent_keeps (fun t => Relation.ReflTransGen (AgentStep a) s t) a
    (fun p t h => h.tail (agentStep_microStep a p t)) ps s .refl

/-- A step of the machine is a sequence of atomic steps of the turn's agent. -/
theorem step_agentSteps {s t : State} (h : step s = .next t) :
    (s.schedule = [] ∧ t = s)
    ∨ ∃ a ps rest, s.nextAgent = some a ∧ Relation.ReflTransGen (AgentStep a) (latch a ps rest s) t := by
  refine (step_cases h).imp id ?_
  rintro ⟨a, ps, rest, u, hnext, hu, rfl⟩
  exact ⟨a, ps, rest, hnext, .head (agentStep_begins hu) (agentSteps_runAgent a ps u)⟩

/-- What holds of the state with the turn taken and is kept by every atomic step of the turn's agent holds after it. -/
theorem step_keeps {P : State → Prop} {s t : State} (h : step s = .next t) (hs : P s)
    (hlatch : ∀ a ps rest, P (latch a ps rest s))
    (hsteps : ∀ a u v, s.nextAgent = some a → P u → AgentStep a u v → P v) : P t := by
  rcases step_agentSteps h with ⟨-, rfl⟩ | ⟨a, ps, rest, hnext, hrun⟩
  · exact hs
  · clear h
    induction hrun with
    | refl => exact hlatch a ps rest
    | tail _ hstep ih => exact hsteps a _ _ hnext ih hstep

end Sys2Proof.Machine
end

section
/-! The rules over all turns (10_state.md rules R41 to R44, 60_exceptions.md rules R223, R224, R227, R237): each follows
from what one atomic step of an agent can do. -/

namespace Sys2Proof.Machine

/-! ### What an atomic step leaves -/

/-- Making an agent idle leaves every other caller. -/
theorem callerOp_setIdle_other {a : Agent} {n : Nat} (h : a ≠ .caller n) (s : State) :
    (s.setIdle a).callerOp n = s.callerOp n := by
  cases a with
  | caller m => exact Table.find_erase_other (fun hn => h (congrArg _ hn.symm)) s.callers
  | isr => rfl
  | line => rfl

theorem isr_setIdle_other {a : Agent} (h : a ≠ .isr) (s : State) : (s.setIdle a).isr = s.isr := by
  cases a with
  | caller m => rfl
  | isr => exact absurd rfl h
  | line => rfl

theorem Effect.callerOp {a : Agent} {s u : State} (h : Effect a s u) (n : Nat) : u.callerOp n = s.callerOp n := by
  rw [State.callerOp, State.callerOp, h.callers]

section Step
variable {a : Agent} {s t : State}

theorem AgentStep.cfg (h : AgentStep a s t) : t.cfg = s.cfg := by
  cases h with
  | stays => rfl
  | answers r h => exact (answer_cfg a r _).trans h.cfg
  | faults _ _ op c => exact raiseFault_cfg a op c s
  | goesOn op h => exact h.cfg
  | serves p h => exact h.cfg

theorem AgentStep.active (h : AgentStep a s t) : t.active = s.active := by
  cases h with
  | stays => rfl
  | answers r h => exact (answer_active a r _).trans h.active
  | faults _ _ op c => exact raiseFault_active a op c s
  | goesOn op h => exact h.active
  | serves p h => exact h.active

/-- An atomic step of a caller or of the line side leaves the ISR. -/
theorem AgentStep.isr (h : AgentStep a s t) (ha : a ≠ .isr) : t.isr = s.isr := by
  cases h with
  | stays => rfl
  | answers r h => exact (isr_setIdle_other ha _).trans h.isr
  | faults _ _ op c => exact isr_setIdle_other ha s
  | goesOn op h => exact h.isr
  | serves p h => exact absurd rfl ha

/-- An atomic step of an agent leaves every caller that is not the agent. -/
theorem AgentStep.callerOp (h : AgentStep a s t) {n : Nat} (ha : a ≠ .caller n) : t.callerOp n = s.callerOp n := by
  cases h with
  | stays => rfl
  | answers r h => exact (callerOp_setIdle_other ha _).trans (h.callerOp n)
  | faults _ _ op c => exact callerOp_setIdle_other ha s
  | goesOn op h => exact (Table.find_put_other (fun hn => ha (congrArg _ hn.symm)) op _).trans (h.callerOp n)
  | serves p h => exact h.callerOp n

/-- An atomic step of a caller or of the line side leaves the scalars or clears them all. -/
theorem AgentStep.scalars (h : AgentStep a s t) (ha : a ≠ .isr) :
    t.scalars = s.scalars ∨ t.scalars = (0#32, false, false) := by
  cases h with
  | stays => exact .inl rfl
  | answers r h => simpa only [answer_scalars] using h.scalars ha
  | faults _ _ op c => exact .inl (raiseFault_scalars a op c s)
  | goesOn op h => exact h.scalars ha
  | serves p h => exact absurd rfl ha

/-- An atomic step records no fault, or it records one of its agent, which is idle after it. -/
theorem AgentStep.faults_cases (h : AgentStep a s t) :
    t.faults = s.faults ∨ t.agentIdle a = true ∧ ∃ op c, t.faults = addFault ⟨a, op, c⟩ s.faults := by
  cases h with
  | stays => exact .inl rfl
  | answers r h => exact .inl ((answer_faults a r _).trans h.faults)
  | faults _ _ op c => exact .inr ⟨agentIdle_raiseFault a op c s, op, c, rfl⟩
  | goesOn op h => exact .inl h.faults
  | serves p h => exact .inl h.faults

end Step

/-! ### Parameters, other agents, scalars -/

/-- Settles O51: no atomic step changes the parameters. -/
theorem parametersNeverChange : Obligations.ParametersNeverChange :=
  fun s _ h => step_keeps (P := fun u => u.cfg = s.cfg) h rfl (fun _ _ _ => rfl)
    fun _ _ _ _ hu hstep => hstep.cfg.trans hu

/-- Settles O49: every atomic step of a turn is one of the turn's agent. -/
theorem aTurnLeavesTheOtherAgentsInFlight : Obligations.ATurnLeavesTheOtherAgentsInFlight := by
  intro s t a h hnext
  refine ⟨fun ha => ?_, fun n ha => ?_⟩
  · refine step_keeps (P := fun u => u.isr = s.isr) h rfl (fun _ _ _ => rfl) fun b u v hb hu hstep => ?_
    obtain rfl : b = a := Option.some.inj (hb.symm.trans hnext)
    exact (hstep.isr ha).trans hu
  · refine step_keeps (P := fun u => u.callerOp n = s.callerOp n) h rfl (fun _ _ _ => rfl) fun b u v hb hu hstep => ?_
    obtain rfl : b = a := Option.some.inj (hb.symm.trans hnext)
    exact (hstep.callerOp ha).trans hu

/-- A turn that is not the ISR's leaves the scalars or clears them all. -/
theorem step_scalars {s t : State} (h : step s = .next t) (hnext : s.nextAgent ≠ some .isr) :
    t.scalars = s.scalars ∨ t.scalars = (0#32, false, false) := by
  refine step_keeps (P := fun u => u.scalars = s.scalars ∨ u.scalars = (0#32, false, false)) h (.inl rfl)
    (fun _ _ _ => .inl rfl) fun a u v ha hu hstep => ?_
  rcases hstep.scalars (fun he => hnext (he ▸ ha)) with hv | hv
  · exact hu.imp hv.trans hv.trans
  · exact .inr hv

/-- Settles O47: a flag that is clear stays clear, whether the scalars are left or cleared. -/
theorem onlyServiceFlagsErrorsAndCounts : Obligations.OnlyServiceFlagsErrorsAndCounts := by
  intro s t h hnext
  have hscalars := step_scalars h hnext
  simp only [State.scalars, State.errorFlags, Prod.mk.injEq] at hscalars
  rcases hscalars with ⟨hb, hr, ht⟩ | ⟨hb, hr, ht⟩
  · exact ⟨hr.trans, ht.trans, .inl hb⟩
  · exact ⟨fun _ => hr, fun _ => ht, .inr hb⟩

/-! ### Faults -/

/-- `fs'` is `fs`, or `fs` and one new record of agent `a`. -/
def AddsAtMostOne (a : Agent) (fs fs' : List FaultRecord) : Prop :=
  fs' = fs ∨ ∃ f, f.agent = a ∧ f ∉ fs ∧ fs' = fs ++ [f]

theorem addsAtMostOne_addFault (f : FaultRecord) (fs : List FaultRecord) : AddsAtMostOne f.agent fs (addFault f fs) := by
  unfold addFault
  split
  · exact .inl rfl
  · next hf => exact .inr ⟨f, rfl, hf, rfl⟩

/-- The agent has recorded no fault since `fs`, or at most one, and is idle. -/
def FaultsSince (a : Agent) (fs : List FaultRecord) (s : State) : Prop :=
  s.faults = fs ∨ s.agentIdle a = true ∧ AddsAtMostOne a fs s.faults

theorem faultsSince_agentStep {a : Agent} {s t : State} (h : AgentStep a s t) : FaultsSince a s.faults t := by
  refine h.faults_cases.imp id ?_
  rintro ⟨hidle, op, c, hf⟩
  exact ⟨hidle, hf ▸ addsAtMostOne_addFault ⟨a, op, c⟩ s.faults⟩

/-- A micro-step keeps it: the agent is idle after its fault and takes no further step. -/
theorem faultsSince_microStep {a : Agent} {fs : List FaultRecord} (p : Nat) (s : State) (h : FaultsSince a fs s) :
    FaultsSince a fs (microStep a p s) := by
  rcases h with rfl | ⟨hidle, hf⟩
  · exact faultsSince_agentStep (agentStep_microStep a p s)
  · rw [microStep_of_idle a p s hidle]
    exact .inr ⟨hidle, hf⟩

theorem step_faults {s t : State} (h : step s = .next t) : AddsAtMostOne t.active s.faults t.faults := by
  rcases step_cases h with ⟨-, rfl⟩ | ⟨a, ps, rest, u, -, hu, rfl⟩
  · exact .inl rfl
  · have hactive : (runAgent a ps u).active = a := by
      refine runAgent_keeps (fun v => v.active = a) a (fun p v hv => ?_) ps u (agentStep_begins hu).active
      exact (agentStep_microStep a p v).active.trans hv
    have hbegin : AgentStep a (latch a ps rest s) u := agentStep_begins hu
    have hsince : FaultsSince a s.faults (runAgent a ps u) :=
      runAgent_keeps _ a faultsSince_microStep ps u (faultsSince_agentStep (s := latch a ps rest s) hbegin)
    rw [hactive]
    exact hsince.elim .inl And.right

/-- Settles O48: the atomic step that records a fault is its agent's last in the turn. -/
theorem faultsStayAndATurnAddsAtMostOne : Obligations.FaultsStayAndATurnAddsAtMostOne :=
  ⟨rfl, fun _ _ => step_faults⟩

/-! ### The read-only bits of STATUS -/

theorem maskStatusHigh_readOnly (old v : Byte) : maskStatusHigh old v &&& 0x1F#8 = old &&& 0x1F#8 := by
  rw [maskStatusHigh, BitVec.and_or_distrib_right, BitVec.and_assoc, BitVec.and_assoc]
  simp

/-- A byte lane of a software write keeps the STATUS bits that software may only read (rules R32, R54). -/
theorem readOnlyBits_softwareWrite {m m' : Memory} (h : SoftwareWrite m m') :
    m'.read 0 = m.read 0 ∧ m'.read 1 &&& 0x1F#8 = m.read 1 &&& 0x1F#8 := by
  obtain ⟨o, v, rfl⟩ := h
  refine ⟨by rw [read_writeStoreByte]; split <;> simp_all, ?_⟩
  rw [read_writeStoreByte]
  split
  · rw [if_pos rfl, maskStatusHigh_readOnly]
  · rfl

theorem readOnlyBits_softwareWrites {m m' : Memory} (h : SoftwareWrites m m') :
    m'.read 0 = m.read 0 ∧ m'.read 1 &&& 0x1F#8 = m.read 1 &&& 0x1F#8 := by
  induction h with
  | refl => exact ⟨rfl, rfl⟩
  | tail _ hw ih =>
    obtain ⟨h0, h1⟩ := readOnlyBits_softwareWrite hw
    exact ⟨h0.trans ih.1, h1.trans ih.2⟩

/-- The read-only bits of STATUS are its low byte and the low five bits of its high byte. -/
theorem status_readOnly (s : State) : s.status &&& 0x1FFF#16 = (s.store.read 1 &&& 0x1F#8) ++ s.store.read 0 := by
  have hmask : 0x1FFF#16 = 0x1F#8 ++ 0xFF#8 := rfl
  rw [State.status, hmask, BitVec.and_append]
  exact congrArg _ BitVec.and_allOnes

/-- Settles O45: a turn that is not the line side's writes the store by byte lanes of software writes only. -/
theorem onlyTheLineSideChangesReadOnlyStatusBits : Obligations.OnlyTheLineSideChangesReadOnlyStatusBits := by
  intro s t h hnext
  obtain hsw := (step_store s t h).resolve_right fun hline => hnext hline.1
  obtain ⟨h0, h1⟩ := readOnlyBits_softwareWrites hsw
  rw [status_readOnly, status_readOnly, h0, h1]

end Sys2Proof.Machine
end

section
/-! The block's invariant is kept by every atomic step (10_state.md rules R34 to R44): the block's own part by what a step
does to it, the callers' part because at most one of them can move the lifecycle. -/

namespace Sys2Proof.Machine

/-! ### Sorted tables -/

section Table
variable {α : Type}

theorem Table.sorted_iff_pairwise (t : List (Nat × α)) : Table.sorted t = true ↔ t.Pairwise (fun c d => c.1 < d.1) := by
  induction t with
  | nil => simp [Table.sorted]
  | cons c t ih =>
    obtain ⟨k, v⟩ := c
    simp only [Table.sorted_cons, Bool.and_eq_true, List.all_eq_true, decide_eq_true_eq, List.pairwise_cons, ih]

/-- An entry of a sorted table is the one found at its index. -/
theorem Table.find_eq_some_iff {t : List (Nat × α)} (h : Table.sorted t = true) (k : Nat) (v : α) :
    Table.find k t = some v ↔ (k, v) ∈ t := by
  induction t with
  | nil => simp
  | cons c t ih =>
    obtain ⟨j, w⟩ := c
    simp only [Table.sorted_cons, Bool.and_eq_true, List.all_eq_true, decide_eq_true_eq] at h
    obtain ⟨hlt, hsorted⟩ := h
    rw [Table.find_cons, List.mem_cons, Prod.mk.injEq]
    split
    · next hj =>
      subst hj
      have hnot : (j, v) ∉ t := fun hm => lt_irrefl _ (hlt _ hm)
      simp [hnot, eq_comm]
    · next hj => simp [ih hsorted, Ne.symm hj]

theorem Table.nodup_of_sorted {t : List (Nat × α)} (h : Table.sorted t = true) : t.Nodup :=
  ((Table.sorted_iff_pairwise t).mp h).imp fun hlt he => absurd (congrArg Prod.fst he) (Nat.ne_of_lt hlt)

end Table

/-- A list without repeats has at most one element exactly when any two of its elements are equal. -/
theorem length_le_one_iff_of_nodup {β : Type} [DecidableEq β] {l : List β} (h : l.Nodup) :
    l.length ≤ 1 ↔ ∀ x ∈ l, ∀ y ∈ l, x = y := by
  rw [← List.toFinset_card_of_nodup h, Finset.card_le_one]
  simp only [List.mem_toFinset]

/-! ### The callers' part of the invariant -/

/-- The callers' part of the invariant, by caller number. -/
structure State.CallersWf (s : State) : Prop where
  sorted : Table.sorted s.callers = true
  present : ∀ n op, s.callerOp n = some op → s.agentExists (.caller n) = true
  progress : ∀ n, s.agentWf (.caller n)
  alone : ∀ m n op op', s.callerOp m = some op → s.callerOp n = some op' → op.holdsLifecycle = true →
    op'.holdsLifecycle = true → m = n

theorem callersWf_iff (s : State) : s.callersWf = true ↔ s.CallersWf := by
  simp only [State.callersWf, Bool.and_eq_true, decide_eq_true_eq, List.all_eq_true, and_assoc]
  constructor
  · rintro ⟨hsorted, hall, halone⟩
    have hmem (n : Nat) (op : CallerOp) : s.callerOp n = some op ↔ (n, op) ∈ s.callers :=
      Table.find_eq_some_iff hsorted n op
    refine ⟨hsorted, fun n op hop => (hall _ ((hmem n op).mp hop)).1, fun n op hop => (hall _ ((hmem n op).mp hop)).2,
      fun m n op op' hm hn hh hh' => ?_⟩
    rw [length_le_one_iff_of_nodup ((Table.nodup_of_sorted hsorted).filter _)] at halone
    exact congrArg Prod.fst (halone (m, op) (List.mem_filter.mpr ⟨(hmem m op).mp hm, hh⟩) (n, op')
      (List.mem_filter.mpr ⟨(hmem n op').mp hn, hh'⟩))
  · rintro ⟨hsorted, hpresent, hprogress, halone⟩
    have hmem (c : Nat × CallerOp) (hc : c ∈ s.callers) : s.callerOp c.1 = some c.2 :=
      (Table.find_eq_some_iff hsorted c.1 c.2).mpr hc
    refine ⟨hsorted, fun c hc => ⟨hpresent _ _ (hmem c hc), hprogress _ _ (hmem c hc)⟩, ?_⟩
    rw [length_le_one_iff_of_nodup ((Table.nodup_of_sorted hsorted).filter _)]
    intro c hc d hd
    obtain ⟨hc, hhc⟩ := List.mem_filter.mp hc
    obtain ⟨hd, hhd⟩ := List.mem_filter.mp hd
    have hfst : c.1 = d.1 := halone _ _ _ _ (hmem c hc) (hmem d hd) hhc hhd
    have hsnd : s.callerOp c.1 = some d.2 := hfst ▸ hmem d hd
    exact Prod.ext hfst (Option.some.inj ((hmem c hc).symm.trans hsnd))

/-- An operation that holds the lifecycle is in a START or a STOP under way. -/
theorem lifecycle_of_holds {op : CallerOp} {l : Lifecycle} (hwf : op.wf l = true) (hholds : op.holdsLifecycle = true) :
    l = .starting ∨ l = .stopping := by
  match op with
  | .start .s2 | .start .s4 => exact .inl (by simpa [CallerOp.wf] using hwf)
  | .start (.s3Read lanes) | .start (.s3Write r lanes) =>
    exact .inl (by simpa [CallerOp.wf] using Bool.and_elim_left hwf)
  | .stop .t3 => exact .inr (by simpa [CallerOp.wf] using hwf)
  | .stop (.t2Read lanes) | .stop (.t2Write r lanes) =>
    exact .inr (by simpa [CallerOp.wf] using Bool.and_elim_left hwf)

/-- Where an operation that does not hold the lifecycle can be does not depend on the lifecycle. -/
theorem wf_of_not_holds {op : CallerOp} (l l' : Lifecycle) (h : op.holdsLifecycle = false) : op.wf l = op.wf l' := by
  match op with
  | .busRead .. | .busWrite .. | .start .s1 | .stop .t1 | .writeb .. | .readb .. | .readnb .. => rfl

/-- While caller `n` may move the lifecycle, no other caller holds it. -/
theorem not_holds_of_mayMove {s : State} (h : s.CallersWf) {n m : Nat} {op : CallerOp} (hn : s.mayMoveLifecycle n)
    (hm : m ≠ n) (hop : s.callerOp m = some op) : op.holdsLifecycle = false := by
  by_contra hholds
  rw [Bool.not_eq_false] at hholds
  rcases hn with ⟨op', hop', hholds'⟩ | hlife
  · exact hm (h.alone m n op op' hop hop' hholds hholds')
  · have := lifecycle_of_holds (h.progress m op hop) hholds
    rcases hlife with hl | hl <;> simp [hl] at this

/-- A step in which only caller `n` moves: the lifecycle moves, or `n` comes to hold it, only if `n` may. -/
theorem callersWf_of_moves {s t : State} {n : Nat} (h : s.CallersWf) (hcfg : t.cfg = s.cfg)
    (hsorted : Table.sorted t.callers = true) (hothers : ∀ m, m ≠ n → t.callerOp m = s.callerOp m)
    (hlife : t.lifecycle = s.lifecycle ∨ s.mayMoveLifecycle n)
    (hown : ∀ op, t.callerOp n = some op → s.agentExists (.caller n) = true ∧ op.wf t.lifecycle = true
      ∧ (op.holdsLifecycle = true → s.mayMoveLifecycle n)) : t.CallersWf where
  sorted := hsorted
  present := by
    intro m op hop
    have hexists : s.agentExists (.caller m) = true := by
      by_cases hm : m = n
      · subst hm
        exact (hown op hop).1
      · exact h.present m op (hothers m hm ▸ hop)
    simpa only [State.agentExists, hcfg] using hexists
  progress := by
    intro m op hop
    by_cases hm : m = n
    · subst hm
      exact (hown op hop).2.1
    · rw [hothers m hm] at hop
      rcases hlife with hl | hmove
      · rw [hl]
        exact h.progress m op hop
      · rw [wf_of_not_holds _ s.lifecycle (not_holds_of_mayMove h hmove hm hop)]
        exact h.progress m op hop
  alone := by
    have hfree (m : Nat) (op op' : CallerOp) (hm : m ≠ n) (hop : t.callerOp m = some op)
        (hn : t.callerOp n = some op') (hholds : op.holdsLifecycle = true) : op'.holdsLifecycle ≠ true := by
      intro hholds'
      have := not_holds_of_mayMove h ((hown op' hn).2.2 hholds') hm (hothers m hm ▸ hop)
      exact absurd hholds (by simp [this])
    intro m k op op' hm hk hholds hholds'
    by_cases hmn : m = n
    · by_cases hkn : k = n
      · rw [hmn, hkn]
      · exact absurd hholds (hfree k op' op hkn hk (hmn ▸ hm) hholds')
    · by_cases hkn : k = n
      · exact absurd hholds' (hfree m op op' hmn hm (hkn ▸ hk) hholds)
      · exact h.alone m k op op' (hothers m hmn ▸ hm) (hothers k hkn ▸ hk) hholds hholds'

/-- A step that leaves the callers and the lifecycle. -/
theorem State.CallersWf.congr {s t : State} (h : s.CallersWf) (hcfg : t.cfg = s.cfg) (hcallers : t.callers = s.callers)
    (hlife : t.lifecycle = s.lifecycle) : t.CallersWf := by
  have hop (m : Nat) : t.callerOp m = s.callerOp m := by rw [State.callerOp, State.callerOp, hcallers]
  exact
    { sorted := hcallers ▸ h.sorted
      present := fun m op hm => by
        simpa only [State.agentExists, hcfg] using h.present m op (hop m ▸ hm)
      progress := fun m op hm => hlife ▸ h.progress m op (hop m ▸ hm)
      alone := fun m k op op' hm hk => h.alone m k op op' (hop m ▸ hm) (hop k ▸ hk) }

/-! ### The invariant -/

/-- The invariant: the block's part, the callers' and the ISR's. -/
structure State.Inv (s : State) : Prop where
  block : s.BlockWf
  callers : s.CallersWf
  isr : s.agentWf .isr

theorem isrWf_iff (s : State) : s.isrWf = true ↔ s.agentWf .isr := by
  unfold State.isrWf State.agentWf
  cases s.isr <;> simp

theorem inv_iff (s : State) : s.inv = true ↔ s.Inv := by
  simp only [State.inv, Bool.and_eq_true, decide_eq_true_eq, callersWf_iff, isrWf_iff]
  constructor
  · rintro ⟨⟨⟨⟨⟨⟨hcfg, hstore⟩, hqueues⟩, hlife⟩, hcallers⟩, hisr⟩, hfaults⟩
    exact ⟨⟨hcfg, hstore, hqueues, hlife, hfaults⟩, hcallers, hisr⟩
  · rintro ⟨⟨hcfg, hstore, hqueues, hlife, hfaults⟩, hcallers, hisr⟩
    exact ⟨⟨⟨⟨⟨⟨hcfg, hstore⟩, hqueues⟩, hlife⟩, hcallers⟩, hisr⟩, hfaults⟩

theorem State.Inv.agentWf {s : State} (h : s.Inv) (a : Agent) : s.agentWf a := by
  cases a with
  | caller n => exact h.callers.progress n
  | isr => exact h.isr
  | line => trivial

/-- What an effect does is kept by the callers' part when its agent ends. -/
theorem callersWf_of_ends {a : Agent} {s t : State} (h : s.CallersWf) (hcfg : t.cfg = s.cfg)
    (hcallers : t.callers = (s.setIdle a).callers)
    (hlife : t.lifecycle = s.lifecycle ∨ ∃ n, a = .caller n ∧ s.mayMoveLifecycle n) : t.CallersWf := by
  cases a with
  | caller n =>
    have hop (m : Nat) : t.callerOp m = Table.find m (Table.erase n s.callers) := by
      rw [State.callerOp, hcallers, setIdle_caller_callers]
    refine callersWf_of_moves (n := n) h hcfg ?_ (fun m hm => ?_) (hlife.imp id ?_) fun op hn => ?_
    · rw [hcallers]
      exact Table.sorted_erase n _ h.sorted
    · rw [hop, Table.find_erase_other hm, State.callerOp]
    · rintro ⟨m, hm, hmove⟩
      cases hm
      exact hmove
    · rw [hop, Table.find_erase_same] at hn
      cases hn
  | isr => exact h.congr hcfg hcallers (hlife.resolve_right nofun)
  | line => exact h.congr hcfg hcallers (hlife.resolve_right nofun)

theorem isr_agentWf_setIdle {a : Agent} {s t : State} (h : s.agentWf .isr) (hisr : t.isr = (s.setIdle a).isr) :
    t.agentWf .isr := by
  intro p hp
  rw [hisr] at hp
  cases a with
  | caller n => exact h p hp
  | isr => cases hp
  | line => exact h p hp

theorem setIdle_congr {s u : State} (a : Agent) (hcallers : u.callers = s.callers) (hisr : u.isr = s.isr) :
    (u.setIdle a).callers = (s.setIdle a).callers ∧ (u.setIdle a).isr = (s.setIdle a).isr := by
  cases a <;> simp [State.setIdle, hcallers, hisr]

/-- Every atomic step keeps the invariant. -/
theorem AgentStep.inv {a : Agent} {s t : State} (h : AgentStep a s t) (hs : s.Inv) : t.Inv := by
  cases h with
  | stays => exact hs
  | @answers _ _ u r h =>
    obtain ⟨hcallers, hisr⟩ := setIdle_congr a h.callers h.isr
    exact
      { block := (h.block (hs.agentWf a) hs.block).answer a r
        callers := callersWf_of_ends hs.callers ((answer_cfg a r u).trans h.cfg) hcallers
          (by rw [answer_lifecycle]; exact h.lifecycle)
        isr := isr_agentWf_setIdle hs.isr hisr }
  | faults _ _ op c =>
    exact
      { block := hs.block.raiseFault a op c
        callers := callersWf_of_ends hs.callers (raiseFault_cfg a op c s) rfl (.inl (raiseFault_lifecycle a op c s))
        isr := isr_agentWf_setIdle hs.isr rfl }
  | @goesOn n _ u op h hpresent hwf hholds =>
    have hop (m : Nat) : (u.setCaller n op).callerOp m = Table.find m (Table.put n op s.callers) := by
      rw [State.callerOp, setCaller_callers, h.callers]
    have hexists : s.agentExists (.caller n) = true := by
      rcases hpresent with he | hsome
      · exact he
      · obtain ⟨op', hop'⟩ := Option.isSome_iff_exists.mp hsome
        exact hs.callers.present n op' hop'
    refine
      { block := (h.block (hs.agentWf _) hs.block).congr rfl rfl rfl rfl rfl rfl rfl (h.faults ▸ hs.block.faults)
        callers := callersWf_of_moves (n := n) hs.callers h.cfg ?_ (fun m hm => ?_) (h.lifecycle.imp id ?_)
          fun op' hn => ?_
        isr := fun p hp => hs.isr p (h.isr ▸ hp) }
    · rw [setCaller_callers, h.callers]
      exact Table.sorted_put n op _ hs.callers.sorted
    · rw [hop, Table.find_put_other hm, State.callerOp]
    · rintro ⟨m, hm, hmove⟩
      cases hm
      exact hmove
    · rw [hop, Table.find_put_same] at hn
      cases hn
      exact ⟨hexists, hwf (hs.agentWf _), hholds⟩
  | @serves _ u p h hwf =>
    exact
      { block := (h.block hs.isr hs.block).congr rfl rfl rfl rfl rfl rfl rfl (h.faults ▸ hs.block.faults)
        callers := hs.callers.congr h.cfg h.callers (h.lifecycle.resolve_right nofun)
        isr := fun q hq => by
          cases hq
          exact hwf hs.isr }

theorem State.Inv.latch {s : State} (h : s.Inv) (a : Agent) (ps : List Nat) (rest : List Turn) :
    (latch a ps rest s).Inv where
  block := h.block.congr rfl rfl rfl rfl rfl rfl rfl h.block.faults
  callers := h.callers.congr rfl rfl rfl
  isr := h.isr

/-- Settles O43: taking the turn and every atomic step of its agent keep the invariant. -/
theorem everyStepKeepsTheInvariant : Obligations.EveryStepKeepsTheInvariant := by
  intro s t hs h
  rw [inv_iff] at hs ⊢
  exact step_keeps h hs hs.latch fun _ _ _ _ hu hstep => hstep.inv hu

/-! ### Reset -/

theorem hardware_wf : Config.hardware.wf = true := by
  have hbase : Config.hardware.statusBase.toNat ≤ 2 ^ 32 - 4 := by
    unfold Config.hardware
    dsimp only
    split
    · assumption
    · decide
  have hcallers : 1 ≤ Config.hardware.nCallers := Nat.le_add_left 1 _
  have hqcap : 1 ≤ Config.hardware.qcap := by decide
  simp only [Config.wf, Bool.and_eq_true, decide_eq_true_eq]
  exact ⟨⟨hbase, hqcap⟩, hcallers⟩

/-- Settles O42: the open parameters are within their constraints, and everything else is at a value to look at. -/
theorem resetMeetsTheInvariant : Obligations.ResetMeetsTheInvariant := by
  refine (inv_iff _).mpr ⟨⟨hardware_wf, rfl, rfl, rfl, List.nodup_nil⟩, (callersWf_iff _).mp rfl, nofun⟩

/-- Settles O41: every element of the reset state is written out in it. -/
theorem powerOnResetState : Obligations.PowerOnResetState := by
  refine ⟨fun _ => rfl, rfl, rfl, rfl, rfl, rfl, rfl, rfl, rfl, rfl, rfl, rfl, rfl, rfl, rfl, fun a => ?_, rfl⟩
  cases a <;> rfl

end Sys2Proof.Machine
end

section
/-! A turn may be split between any two of its atomic steps (00_scope.md rule R17, log entry 1): no atomic step reads or
writes what taking a turn latches. -/

namespace Sys2Proof.Machine

/-- The function does not look at what taking a turn latches (the schedule, the active agent, the picks) and leaves it. -/
def IgnoresLatch (f : State → State) : Prop :=
  ∀ (a : Agent) (ps : List Nat) (rest : List Turn) (s : State), f (latch a ps rest s) = latch a ps rest (f s)

theorem ignoresLatch_answer (b : Agent) (r : Response) : IgnoresLatch fun s => s.answer b r := by
  cases b <;> exact fun _ _ _ _ => rfl

theorem ignoresLatch_raiseFault (b : Agent) (op : Byte) (c : FaultCode) :
    IgnoresLatch fun s => s.raiseFault b op c := by
  cases b <;> exact fun _ _ _ _ => rfl

/-- A test that does not look at the latched fields, between two branches that ignore them. -/
theorem ite_latch {c : Prop} [Decidable c] {a : Agent} {ps : List Nat} {rest : List Turn} {x y x' y' : State}
    (hx : x' = latch a ps rest x) (hy : y' = latch a ps rest y) :
    (if c then x' else y') = latch a ps rest (if c then x else y) := by
  rw [hx, hy, apply_ite (latch a ps rest)]

/-! ### Queue answers -/

section Queue
variable (sel : QueueSel) (a : Agent) (ps : List Nat) (rest : List Turn) (s : State)

theorem enqAnswer_latch : enqAnswer sel (latch a ps rest s) = enqAnswer sel s := by cases sel <;> rfl

theorem deqAnswer_latch : deqAnswer sel (latch a ps rest s) = deqAnswer sel s := by cases sel <;> rfl

theorem deqResponse_latch : deqResponse sel (latch a ps rest s) = deqResponse sel s := by cases sel <;> rfl

theorem queueFull_latch : queueFull sel (latch a ps rest s) = queueFull sel s := by cases sel <;> rfl

theorem queueEmpty_latch : queueEmpty sel (latch a ps rest s) = queueEmpty sel s := by cases sel <;> rfl

theorem queueLen_latch : queueLen sel (latch a ps rest s) = queueLen sel s := by cases sel <;> rfl

end Queue

/-! ### Micro-steps -/

theorem ignoresLatch_stepBusRead (pick n : Nat) (addr : Addr) (w : Nat) (lanes : Lanes) :
    IgnoresLatch (stepBusRead pick n addr w lanes) := by
  intro a ps rest s
  unfold stepBusRead
  exact ite_latch rfl rfl

theorem ignoresLatch_stepBusWrite (pick n : Nat) (addr : Addr) (w : Nat) (v : Word) (lanes : Lanes) :
    IgnoresLatch (stepBusWrite pick n addr w v lanes) := by
  intro a ps rest s
  unfold stepBusWrite
  exact ite_latch rfl rfl

theorem ignoresLatch_stepStart1 (pick n : Nat) : IgnoresLatch (stepStart1 pick n) := by
  intro a ps rest s
  unfold stepStart1
  exact ite_latch (ite_latch rfl rfl) rfl

theorem ignoresLatch_stepStart3Read (pick n : Nat) (lanes : Lanes) : IgnoresLatch (stepStart3Read pick n lanes) := by
  intro a ps rest s
  unfold stepStart3Read
  exact ite_latch rfl rfl

theorem ignoresLatch_stepStart3Write (pick n : Nat) (r : Word) (lanes : Lanes) :
    IgnoresLatch (stepStart3Write pick n r lanes) := by
  intro a ps rest s
  unfold stepStart3Write
  exact ite_latch rfl rfl

theorem ignoresLatch_stepStart (pick n : Nat) (next : StartStep) : IgnoresLatch (stepStart pick n next) := by
  cases next with
  | s1 => exact ignoresLatch_stepStart1 pick n
  | s2 => exact fun _ _ _ _ => rfl
  | s3Read lanes => exact ignoresLatch_stepStart3Read pick n lanes
  | s3Write r lanes => exact ignoresLatch_stepStart3Write pick n r lanes
  | s4 => exact fun _ _ _ _ => rfl

theorem ignoresLatch_stepStop1 (n : Nat) : IgnoresLatch (stepStop1 n) := by
  intro a ps rest s
  unfold stepStop1
  exact ite_latch rfl rfl

theorem ignoresLatch_stepStop2Read (pick n : Nat) (lanes : Lanes) : IgnoresLatch (stepStop2Read pick n lanes) := by
  intro a ps rest s
  unfold stepStop2Read
  exact ite_latch rfl rfl

theorem ignoresLatch_stepStop2Write (pick n : Nat) (r : Word) (lanes : Lanes) :
    IgnoresLatch (stepStop2Write pick n r lanes) := by
  intro a ps rest s
  unfold stepStop2Write
  exact ite_latch rfl rfl

theorem ignoresLatch_stepStop3 (n : Nat) : IgnoresLatch (stepStop3 n) := by
  intro a ps rest s
  unfold stepStop3
  exact ite_latch rfl rfl

theorem ignoresLatch_stepStop (pick n : Nat) (next : StopStep) : IgnoresLatch (stepStop pick n next) := by
  cases next with
  | t1 => exact ignoresLatch_stepStop1 n
  | t2Read lanes => exact ignoresLatch_stepStop2Read pick n lanes
  | t2Write r lanes => exact ignoresLatch_stepStop2Write pick n r lanes
  | t3 => exact ignoresLatch_stepStop3 n

theorem ignoresLatch_enqState (sel : QueueSel) (b : Byte) : IgnoresLatch (enqState sel b) := by
  intro a ps rest s
  unfold enqState
  rw [enqAnswer_latch]
  cases enqAnswer sel s <;> cases sel <;> rfl

theorem ignoresLatch_deqState (sel : QueueSel) : IgnoresLatch (deqState sel) := by
  intro a ps rest s
  unfold deqState
  rw [deqAnswer_latch]
  cases deqAnswer sel s <;> cases sel <;> rfl

theorem ignoresLatch_loopWriteb (n : Nat) (bytes : List Byte) (i : Nat) : IgnoresLatch (loopWriteb n bytes i) := by
  intro a ps rest s
  unfold loopWriteb
  exact ite_latch rfl rfl

theorem ignoresLatch_loopReadb (n count : Nat) (out : List Byte) : IgnoresLatch (loopReadb n count out) := by
  intro a ps rest s
  unfold loopReadb
  exact ite_latch rfl rfl

theorem ignoresLatch_loopReadnb (n count : Nat) (out : List Byte) : IgnoresLatch (loopReadnb n count out) := by
  intro a ps rest s
  unfold loopReadnb
  exact ite_latch rfl rfl

theorem ignoresLatch_stepWriteb (n : Nat) (bytes : List Byte) (i : Nat) : IgnoresLatch (stepWriteb n bytes i) := by
  intro a ps rest s
  unfold stepWriteb
  rw [enqAnswer_latch, ignoresLatch_enqState, ignoresLatch_loopWriteb]
  exact ite_latch rfl (by cases enqAnswer .tx s <;> rfl)

theorem ignoresLatch_stepReadb (n count : Nat) (out : List Byte) : IgnoresLatch (stepReadb n count out) := by
  intro a ps rest s
  unfold stepReadb
  rw [deqAnswer_latch, ignoresLatch_deqState, ignoresLatch_loopReadb]
  exact ite_latch rfl (by cases deqAnswer .rx s <;> rfl)

theorem ignoresLatch_stepReadnb (n count : Nat) (out : List Byte) : IgnoresLatch (stepReadnb n count out) := by
  intro a ps rest s
  unfold stepReadnb
  rw [deqAnswer_latch, ignoresLatch_deqState, ignoresLatch_loopReadnb]
  exact ite_latch rfl (by cases deqAnswer .rx s <;> rfl)

theorem ignoresLatch_stepCaller (pick n : Nat) (op : CallerOp) : IgnoresLatch (stepCaller pick n op) := by
  cases op with
  | busRead a w lanes => exact ignoresLatch_stepBusRead pick n a w lanes
  | busWrite a w v lanes => exact ignoresLatch_stepBusWrite pick n a w v lanes
  | start next => exact ignoresLatch_stepStart pick n next
  | stop next => exact ignoresLatch_stepStop pick n next
  | writeb bytes i => exact ignoresLatch_stepWriteb n bytes i
  | readb count out => exact ignoresLatch_stepReadb n count out
  | readnb count out => exact ignoresLatch_stepReadnb n count out

theorem ignoresLatch_serviceGoto (q : Option ServicePhase) : IgnoresLatch (serviceGoto q) := by
  cases q <;> exact fun _ _ _ _ => rfl

theorem ignoresLatch_stepSnapshot (pick : Nat) (lanes : Lanes) : IgnoresLatch (stepSnapshot pick lanes) := by
  intro a ps rest s
  unfold stepSnapshot
  exact ite_latch (ignoresLatch_serviceGoto _ a ps rest s) rfl

theorem ignoresLatch_stepTestFull (v : Half) (b : Byte) : IgnoresLatch (stepTestFull v b) := by
  intro a ps rest s
  unfold stepTestFull
  exact ite_latch rfl (ite_latch rfl rfl)

theorem ignoresLatch_stepEnqueue (v : Half) (b : Byte) : IgnoresLatch (stepEnqueue v b) := by
  intro a ps rest s
  unfold stepEnqueue
  rw [enqAnswer_latch, ignoresLatch_enqState, ignoresLatch_serviceGoto]
  exact ite_latch rfl (by cases enqAnswer .rx s <;> rfl)

theorem ignoresLatch_stepDequeue (v : Half) : IgnoresLatch (stepDequeue v) := by
  intro a ps rest s
  unfold stepDequeue
  rw [deqAnswer_latch, ignoresLatch_deqState]
  exact ite_latch rfl (by cases deqAnswer .tx s <;> rfl)

theorem ignoresLatch_stepSend (pick : Nat) (v : Half) (t : Byte) (lanes : Lanes) :
    IgnoresLatch (stepSend pick v t lanes) := by
  intro a ps rest s
  unfold stepSend
  exact ite_latch rfl rfl

theorem ignoresLatch_stepService (pick : Nat) (p : ServicePhase) : IgnoresLatch (stepService pick p) := by
  cases p with
  | snapshot lanes => exact ignoresLatch_stepSnapshot pick lanes
  | markError v =>
    exact fun a ps rest s => ignoresLatch_serviceGoto (transmitPhase v) a ps rest (countReceived (flagReceiveError s))
  | readData v | countByte v b | dequeueFailed v => exact fun _ _ _ _ => rfl
  | testFull v b => exact ignoresLatch_stepTestFull v b
  | dropByte v b | enqueueFailed v b =>
    exact fun a ps rest s => ignoresLatch_serviceGoto (transmitPhase v) a ps rest (flagReceiveError s)
  | enqueue v b => exact ignoresLatch_stepEnqueue v b
  | dequeue v => exact ignoresLatch_stepDequeue v
  | send v t lanes => exact ignoresLatch_stepSend pick v t lanes

theorem ignoresLatch_microStep (b : Agent) (pick : Nat) : IgnoresLatch (microStep b pick) := by
  intro a ps rest s
  cases b with
  | caller n =>
    have hl : (latch a ps rest s).callerOp n = s.callerOp n := rfl
    cases hop : s.callerOp n with
    | some op => simpa only [microStep, hl, hop] using ignoresLatch_stepCaller pick n op a ps rest s
    | none => simp only [microStep, hl, hop]
  | isr =>
    cases hp : s.isr with
    | some p => simpa only [microStep, latch_isr, hp] using ignoresLatch_stepService pick p a ps rest s
    | none => simp only [microStep, latch_isr, hp]
  | line => rfl

theorem ignoresLatch_runAgent (b : Agent) (qs : List Nat) : IgnoresLatch (runAgent b qs) := by
  intro a ps rest s
  induction qs generalizing s with
  | nil => rfl
  | cons q qs ih => rw [runAgent_cons, ignoresLatch_microStep, ih, runAgent_cons]

/-! ### Requests -/

/-- The function looks, of what taking a turn latches, at the active agent alone, and leaves it all. -/
def IgnoresPicks (f : State → State) : Prop :=
  ∀ (ps : List Nat) (rest : List Turn) (s : State),
    f (latch s.active ps rest s) = latch s.active ps rest (f s)

theorem ignoresPicks_queueRequest {op : Byte} {act : State → State} (hact : IgnoresPicks act) :
    IgnoresPicks (queueRequest op act) := by
  intro ps rest s
  unfold queueRequest
  exact ite_latch (ignoresLatch_raiseFault _ _ _ _ _ _ _) (hact ps rest s)

theorem ignoresPicks_asCaller {f : Nat → State → State} (hf : ∀ n, IgnoresLatch (f n)) : IgnoresPicks (asCaller f) := by
  intro ps rest s
  cases ha : s.active with simp only [asCaller, latch_active, ha]
  | caller n => exact hf n _ ps rest s

theorem ignoresLatch_issueService : IgnoresLatch issueService := by
  intro a ps rest s
  unfold issueService
  exact ite_latch rfl (by rw [latch_cfg]; cases s.cfg.gatedService <;> rfl)

/-- A request of a single step: the response and the rest of the step ignore the latched fields. -/
theorem ignoresPicks_answer (r : State → Response) (f : State → State)
    (hr : ∀ a ps rest s, r (latch a ps rest s) = r s) (hf : IgnoresLatch f) :
    IgnoresPicks fun s => (f s).answer s.active (r s) := by
  intro ps rest s
  dsimp only
  rw [hr, hf]
  exact ignoresLatch_answer _ _ _ _ _ (f s)

theorem ignoresPicks_issue (i : Instr) : IgnoresPicks (issue i) := by
  have hid : IgnoresLatch id := fun _ _ _ _ => rfl
  cases i with
  | rd8 addr => exact ignoresPicks_answer (fun s => .rdata (memRead addr 1 s)) id (fun _ _ _ _ => rfl) hid
  | rd16 | rd32 | wr16 | wr32 | start | stop => exact ignoresPicks_asCaller fun _ _ _ _ _ => rfl
  | wr8 addr v => exact ignoresPicks_answer (fun _ => .ack) (memWrite addr 1 v) (fun _ _ _ _ => rfl) fun _ _ _ _ => rfl
  | qenq sel b =>
    exact ignoresPicks_queueRequest (ignoresPicks_answer (fun s => .qres (enqAnswer sel s)) (enqState sel b)
      (fun a ps rest s => congrArg _ (enqAnswer_latch sel a ps rest s)) (ignoresLatch_enqState sel b))
  | qdeq sel =>
    exact ignoresPicks_queueRequest (ignoresPicks_answer (deqResponse sel) (deqState sel)
      (deqResponse_latch sel) (ignoresLatch_deqState sel))
  | qfull sel =>
    exact ignoresPicks_queueRequest (ignoresPicks_answer (fun s => .flag (queueFull sel s)) id
      (fun a ps rest s => by rw [queueFull_latch]) hid)
  | qempty sel =>
    exact ignoresPicks_queueRequest (ignoresPicks_answer (fun s => .flag (queueEmpty sel s)) id
      (fun a ps rest s => by rw [queueEmpty_latch]) hid)
  | qlen sel =>
    exact ignoresPicks_queueRequest (ignoresPicks_answer (fun s => .count (countResult (queueLen sel s))) id
      (fun a ps rest s => by rw [queueLen_latch]) hid)
  | writeb len bytes => exact ignoresPicks_asCaller fun n => ignoresLatch_loopWriteb n bytes 0
  | readb count => exact ignoresPicks_asCaller fun n => ignoresLatch_loopReadb n _ _
  | readnb count => exact ignoresPicks_asCaller fun n => ignoresLatch_loopReadnb n _ _
  | rxlen =>
    exact ignoresPicks_queueRequest (ignoresPicks_answer (fun s => .count (countResult (queueLen .rx s))) id
      (fun _ _ _ _ => rfl) hid)
  | txlen =>
    exact ignoresPicks_queueRequest (ignoresPicks_answer (fun s => .count (countResult (queueLen .tx s))) id
      (fun _ _ _ _ => rfl) hid)
  | totalrx => exact ignoresPicks_answer (fun s => .total s.bytesReceived) id (fun _ _ _ _ => rfl) hid
  | rxerr => exact ignoresPicks_answer (fun s => .flag s.receiveError) id (fun _ _ _ _ => rfl) hid
  | txerr => exact ignoresPicks_answer (fun s => .flag s.transmitError) id (fun _ _ _ _ => rfl) hid
  | service => exact fun ps rest s => ignoresLatch_issueService s.active ps rest s
  | lflags m v =>
    exact ignoresPicks_answer (fun _ => .ack) (fun s => lineWrite 0#2 (driveFlags (s.store.read 0) m v) s)
      (fun _ _ _ _ => rfl) fun _ _ _ _ => rfl
  | lrxdata b => exact ignoresPicks_answer (fun _ => .ack) (lineWrite 2#2 b) (fun _ _ _ _ => rfl) fun _ _ _ _ => rfl
  | lpeek k => exact ignoresPicks_answer (fun s => .lbyte (lineRead k s)) id (fun _ _ _ _ => rfl) hid
  | lpoke k b => exact ignoresPicks_answer (fun _ => .ack) (lineWrite k b) (fun _ _ _ _ => rfl) fun _ _ _ _ => rfl

theorem ignoresPicks_rejectIllegal (op : Byte) : IgnoresPicks (rejectIllegal op) :=
  fun ps rest s => ignoresLatch_raiseFault s.active op .illegalOp s.active ps rest s

/-! ### The turn of a request, with more picks or fewer -/

@[simp] theorem latch_latch (a b : Agent) (ps qs : List Nat) (rest rest' : List Turn) (s : State) :
    latch a ps rest (latch b qs rest' s) = latch a ps rest s := rfl

/-- What a turn's request does, by its bytes. -/
def runRequest (bytes : List Byte) (s : State) : Host.Outcome State Fault Refusal :=
  match decodeRequest bytes with
  | .ok i => exec i s
  | .error e => refuseRequest e s

theorem step_of_issue {s : State} {a : Agent} {bytes : List Byte} {ps : List Nat} {rest : List Turn}
    (hs : s.schedule = .issue a bytes ps :: rest) : step s = runRequest bytes (latch a ps rest s) := by
  unfold runRequest
  cases hd : decodeRequest bytes with
  | ok i => exact step_of_decoded hs hd
  | error e => exact step_of_refused hs hd

/-- The request `run` is one beginning `f` and the granted micro-steps, whatever the picks and the rest of the
schedule. -/
def SplitsAs (run : State → Host.Outcome State Fault Refusal) (f : State → State) (s : State) : Prop :=
  ∀ ps rest, run (latch s.active ps rest s) = .next (runAgent s.active ps (f (latch s.active ps rest s)))

theorem activeReady_latch (ps : List Nat) (rest : List Turn) (s : State) :
    (latch s.active ps rest s).activeReady = s.activeReady := by
  have hexists (a : Agent) : (latch s.active ps rest s).agentExists a = s.agentExists a := by cases a <;> rfl
  have hidle : (latch s.active ps rest s).agentIdle s.active = s.agentIdle s.active := agentIdle_congr _ _ _ rfl rfl
  rw [State.activeReady, latch_active, hexists, hidle, State.activeReady]

theorem admits_latch (op : Byte) (ps : List Nat) (rest : List Turn) (s : State) :
    (latch s.active ps rest s).admits op = s.admits op := by
  rw [State.admits, activeReady_latch, latch_active, latch_cfg, State.admits]

theorem splitsAs_rejectIllegal {run : State → Host.Outcome State Fault Refusal} {op : Byte} {s : State}
    (h : ∀ ps rest, run (latch s.active ps rest s) = .next (rejectIllegal op (latch s.active ps rest s))) :
    SplitsAs run (rejectIllegal op) s := by
  intro ps rest
  have hidle : (rejectIllegal op (latch s.active ps rest s)).agentIdle s.active = true := agentIdle_rejectIllegal op _
  rw [h, runAgent_of_idle _ _ _ hidle]

theorem exec_splits {i : Instr} {s t : State} (h : exec i s = .next t) :
    ∃ f, IgnoresPicks f ∧ SplitsAs (exec i) f s := by
  rcases exec_cases i s with ⟨ha, -⟩ | ⟨hr, hp, -⟩ | ⟨-, f, he⟩
  · exact ⟨issue i, ignoresPicks_issue i, fun ps rest => exec_eq_runAgent i _ ((admits_latch _ _ _ s).trans ha)⟩
  · obtain ⟨run, hrun⟩ := exec_is_accept i
    refine ⟨rejectIllegal i.opcode, ignoresPicks_rejectIllegal _, splitsAs_rejectIllegal fun ps rest => ?_⟩
    exact (hrun _).trans (accept_of_forbidden _ _ _ ((activeReady_latch ps rest s).trans hr) hp)
  · cases h.symm.trans he

theorem refuseRequest_splits {e : DecodeError} {s t : State} (h : refuseRequest e s = .next t) :
    ∃ f, IgnoresPicks f ∧ SplitsAs (refuseRequest e) f s := by
  obtain ⟨hr, h⟩ := present_next h
  refine ⟨rejectIllegal ((errorOpcode e).getD 0#8), ignoresPicks_rejectIllegal _,
    splitsAs_rejectIllegal fun ps rest => ?_⟩
  split at h
  · next he =>
    rw [refuseRequest, present_of_ready _ _ ((activeReady_latch ps rest s).trans hr)]
    exact if_pos he
  · cases h

theorem runRequest_splits {bytes : List Byte} {s t : State} (h : runRequest bytes s = .next t) :
    ∃ f, IgnoresPicks f ∧ SplitsAs (runRequest bytes) f s := by
  unfold runRequest at h ⊢
  split at h
  · exact exec_splits h
  · exact refuseRequest_splits h

/-- Settles O50: the beginning and the micro-steps of a turn are the same with `ps ++ qs` and with `ps` granted; the
advance goes on from there with `qs`. -/
theorem aTurnMayBeSplitAnywhere : Obligations.ATurnMayBeSplitAnywhere := by
  intro s t a bytes ps qs rest h
  rw [step_of_issue rfl] at h
  obtain ⟨f, hf, hsplit⟩ := runRequest_splits h
  have hw (ps' : List Nat) (rest' : List Turn) :
      f (latch a ps' rest' s) = latch a ps' rest' (f (latch a (ps ++ qs) rest s)) :=
    hf ps' rest' (latch a (ps ++ qs) rest s)
  have ht : t = latch a (ps ++ qs) rest (runAgent a (ps ++ qs) (f (latch a (ps ++ qs) rest s))) := by
    rw [← ignoresLatch_runAgent, ← hw]
    exact Host.Outcome.next.inj (h.symm.trans (hsplit (ps ++ qs) rest))
  refine ⟨latch a ps (.advance a qs :: rest) (runAgent a ps (f (latch a (ps ++ qs) rest s))), ?_, ?_⟩
  · rw [step_of_issue rfl, ← ignoresLatch_runAgent, ← hw]
    exact hsplit ps (.advance a qs :: rest)
  · rw [step_of_advance rfl, ht, runAgent_append, latch_latch, ignoresLatch_runAgent]
    rfl

end Sys2Proof.Machine
end

section
/-! The register bus (40_register_bank.md rules R110 to R115): reads hand over `MemRead`, writes store each of their lanes
once, and what both mean at the registers' own addresses. -/

namespace Sys2Proof.Machine

/-! ### Reads -/

/-- An admitted request that hands over a value and does nothing else. -/
theorem accept_answer {op : Byte} {run : State → State} {s : State} {r : Response} (h : s.admits op = true)
    (hrun : run s = s.answer s.active r) :
    accept op s run = .next { s with responses := (s.active, r) :: s.responses } := by
  rw [accept_of_admits op s run h, hrun, answer_of_idle _ _ s (idle_of_admits op s h)]

/-- Settles O9: whatever the order of the lanes, a read assembles `MemRead` of the one state. -/
theorem busReadsReturnMemoryAndChangeNothing : Obligations.BusReadsReturnMemoryAndChangeNothing := by
  intro addr s
  refine ⟨fun h => ?_, fun h hps => ?_, fun h hps => ?_⟩
  · exact accept_answer (run := fun s => s.answer s.active (.rdata (memRead addr 1 s))) h rfl
  · exact accept_answer h (launch_busRead addr h (by decide) (by decide) hps)
  · exact accept_answer h (launch_busRead addr h (by decide) (by decide) hps)

/-! ### Reads at the window -/

/-- The byte read at distance `d` from the window's base. -/
theorem byteRead_statusBase_add (d : Addr) (s : State) :
    byteRead (s.cfg.statusBase + d) s = if d.toNat < 4 then s.store.read d.toNat else 0#8 := by
  rw [byteRead, busOffset_statusBase_add]

theorem toNat_append_eq {w m : Nat} (x : BitVec w) (y : BitVec m) : (x ++ y).toNat = x.toNat * 2 ^ m + y.toNat := by
  rw [BitVec.toNat_append, Nat.shiftLeft_eq, Nat.mul_comm, Nat.two_pow_add_eq_or_of_lt y.isLt]

theorem zeros_append_two (b c : Byte) : 0#8 ++ 0#8 ++ b ++ c = (b ++ c).setWidth 32 := by
  have hb := b.isLt
  have hc := c.isLt
  apply BitVec.eq_of_toNat_eq
  rw [BitVec.toNat_setWidth]
  simp only [toNat_append_eq, BitVec.toNat_ofNat]
  omega

theorem zero_append_three (b c d : Byte) : 0#8 ++ b ++ c ++ d = (b ++ c ++ d).setWidth 32 := by
  have hb := b.isLt
  have hc := c.isLt
  have hd := d.isLt
  apply BitVec.eq_of_toNat_eq
  rw [BitVec.toNat_setWidth]
  simp only [toNat_append_eq, BitVec.toNat_ofNat]
  omega

/-- A zero byte below a byte, and two below a half-word, shift it up. -/
theorem append_zero_byte (b : Byte) : (b ++ 0#8).setWidth 32 = b.setWidth 32 <<< 8 := by
  have hb := b.isLt
  apply BitVec.eq_of_toNat_eq
  rw [BitVec.toNat_setWidth, toNat_append_eq, BitVec.toNat_shiftLeft, BitVec.toNat_setWidth, Nat.shiftLeft_eq,
    BitVec.toNat_ofNat]
  omega

theorem append_zero_bytes (b c : Byte) : b ++ c ++ 0#8 ++ 0#8 = (b ++ c).setWidth 32 <<< 16 := by
  have hbc := (b ++ c).isLt
  apply BitVec.eq_of_toNat_eq
  rw [toNat_append_eq, toNat_append_eq, BitVec.toNat_shiftLeft, BitVec.toNat_setWidth, Nat.shiftLeft_eq,
    BitVec.toNat_ofNat]
  omega

/-- A half-word read is its two bytes, the first in the low lane, zero-extended. -/
theorem memRead_two (a : Addr) (s : State) :
    memRead a 2 s = (byteRead (a + 1#32) s ++ byteRead a s).setWidth 32 := by
  rw [← zeros_append_two]
  simp only [memRead, assemble, laneByte_memRead_lanes]
  simp [byteAddr]

/-- A word read is its four bytes, the first in the low lane. -/
theorem memRead_four (a : Addr) (s : State) :
    memRead a 4 s
      = byteRead (a + 3#32) s ++ byteRead (a + 2#32) s ++ byteRead (a + 1#32) s ++ byteRead a s := by
  simp only [memRead, assemble, laneByte_memRead_lanes]
  simp [byteAddr]

/-- Settles O10: a read is its bytes, and the bytes at the window's base and around it are those of STATUS, DATA and 0. -/
theorem windowReadsAreTheRegisters : Obligations.WindowReadsAreTheRegisters := by
  intro s
  have hbase : s.cfg.statusBase = s.cfg.statusBase + 0#32 := (BitVec.add_zero _).symm
  have hsub1 : s.cfg.statusBase - 1#32 = s.cfg.statusBase + 0xFFFFFFFF#32 := by rw [BitVec.sub_eq_add_neg]; rfl
  have hsub2 : s.cfg.statusBase - 2#32 = s.cfg.statusBase + 0xFFFFFFFE#32 := by rw [BitVec.sub_eq_add_neg]; rfl
  have hread (d : Addr) := byteRead_statusBase_add d s
  have hread0 : byteRead s.cfg.statusBase s = s.store.read 0 := by rw [hbase, hread]; rfl
  simp only [memRead_one, memRead_two, memRead_four, dataBase, hsub1, hsub2, BitVec.add_assoc, BitVec.reduceAdd]
  simp only [hread, hread0]
  simp only [BitVec.reduceToNat, Nat.reduceLT, if_true, if_false]
  have hhigh : s.status.extractLsb' 8 8 = s.store.read 1 := BitVec.extractLsb'_append_eq_left
  have hlow : s.status.extractLsb' 0 8 = s.store.read 0 := BitVec.extractLsb'_append_eq_right
  have hdata : s.data.extractLsb' 0 8 = s.store.read 2 := BitVec.extractLsb'_append_eq_right
  rw [hhigh, hlow, hdata]
  exact ⟨rfl, rfl, rfl, rfl, BitVec.append_assoc, rfl, append_zero_byte _, append_zero_bytes _ _, zero_append_three _ _ _⟩

/-! ### Writes -/

/-- What byte lane `v` of a software write leaves in `store[k]` that held `old`, where it reaches it (rule R54). -/
def laneStored (k : Nat) (v old : Byte) : Byte :=
  if k = 1 then maskStatusHigh old v else if k = 2 then v else if k = 3 then 0#8 else old

/-- The lane of an access at `a` that reaches `store[k]`. -/
def laneReaching (c : Config) (a : Addr) (k : Nat) : Nat := (BitVec.ofNat 32 k - (a - c.statusBase)).toNat

theorem storedByte_eq (c : Config) (a : Addr) (n : Nat) (v : Word) (k : Nat) (old : Byte) :
    storedByte c a n v k old
      = if laneReaching c a k < n then laneStored k (laneOf v (laneReaching c a k)) old else old := rfl

/-- Lane `j` of an access at `a` falls on `store[k]` exactly when it is the lane that reaches it. -/
theorem busOffset_byteAddr_eq_iff {c : Config} {a : Addr} {j k : Nat} (hj : j < 2 ^ 32) (hk : k < 4) :
    busOffset c (byteAddr a j) = k ↔ j = laneReaching c a k := by
  rw [busOffset_byteAddr, laneReaching]
  bv_omega

theorem read_byteWrite_lane {a : Addr} {j k : Nat} (v : Byte) (s : State) (hj : j < 2 ^ 32) (hk : k < 4) :
    (byteWrite (byteAddr a j) v s).store.read k
      = if j = laneReaching s.cfg a k then laneStored k v (s.store.read k) else s.store.read k := by
  rw [byteWrite_store, read_writeStoreByte]
  by_cases h : busOffset s.cfg (byteAddr a j) = k
  · rw [if_pos h, if_pos ((busOffset_byteAddr_eq_iff hj hk).mp h), laneStored]
    split
    · next h1 => rw [h1]
    · rfl
  · rw [if_neg h, if_neg (fun he => h ((busOffset_byteAddr_eq_iff hj hk).mpr he))]

/-- A software write leaves what is not in the window. -/
theorem read_byteWrite_high (a : Addr) (v : Byte) (s : State) {k : Nat} (hk : 4 ≤ k) :
    (byteWrite a v s).store.read k = s.store.read k := by
  rw [byteWrite_store, read_writeStoreByte]
  split
  · rw [if_neg (by omega), if_neg (by omega), if_neg (by omega)]
  · rfl

/-- Distinct lanes of one access, in any order: each store byte is left or takes the lane that reaches it. -/
theorem read_writeLanes (a : Addr) (v : Word) (ks : List Nat) (s : State) (hnodup : ks.Nodup)
    (hks : ∀ j ∈ ks, j < 2 ^ 32) {k : Nat} (hk : k < 4) :
    (writeLanes a v ks s).store.read k
      = if laneReaching s.cfg a k ∈ ks then laneStored k (laneOf v (laneReaching s.cfg a k)) (s.store.read k)
        else s.store.read k := by
  induction ks generalizing s with
  | nil => rfl
  | cons j ks ih =>
    rw [List.nodup_cons] at hnodup
    rw [List.forall_mem_cons] at hks
    rw [writeLanes_cons, ih _ hnodup.2 hks.2, byteWrite_cfg, read_byteWrite_lane _ _ hks.1 hk]
    by_cases hj : j = laneReaching s.cfg a k
    · subst hj
      simp [hnodup.1]
    · simp [hj, Ne.symm hj]

theorem read_writeLanes_high (a : Addr) (v : Word) (ks : List Nat) (s : State) {k : Nat} (hk : 4 ≤ k) :
    (writeLanes a v ks s).store.read k = s.store.read k := by
  induction ks generalizing s with
  | nil => rfl
  | cons j ks ih => rw [writeLanes_cons, ih, read_byteWrite_high _ _ _ hk]

/-- A software write changes nothing but the store. -/
theorem writeLanes_eq (a : Addr) (v : Word) (ks : List Nat) (s : State) :
    writeLanes a v ks s = { s with store := (writeLanes a v ks s).store } := by
  induction ks generalizing s with
  | nil => rfl
  | cons j ks ih =>
    rw [writeLanes_cons, ih]
    rfl

/-- All the lanes of a `w`-byte access, in any order, give every store byte what rule R54 says. -/
theorem read_writeLanes_perm {a : Addr} {v : Word} {w : Nat} {ks : List Nat} (s : State) (hks : ks.Perm (List.range w))
    (hw : w ≤ 2 ^ 32) {k : Nat} (hk : k < 4) :
    (writeLanes a v ks s).store.read k = storedByte s.cfg a w v k (s.store.read k) := by
  have hlt : ∀ j ∈ ks, j < 2 ^ 32 := fun j hj => lt_of_lt_of_le (List.mem_range.mp (hks.mem_iff.mp hj)) hw
  rw [read_writeLanes a v ks s (hks.nodup_iff.mpr List.nodup_range) hlt hk, storedByte_eq]
  simp only [hks.mem_iff, List.mem_range]

/-- An admitted request that performs the byte lanes of one software write. -/
theorem accept_write {op : Byte} {run : State → State} {a : Addr} {v : Word} {w : Nat} {s : State}
    (h : s.admits op = true) (hw : w ≤ 2 ^ 32)
    (hrun : ∃ ks, ks.Perm (List.range w) ∧ run s = (writeLanes a v ks s).answer s.active .ack) :
    ∃ m, accept op s run = .next { s with store := m, responses := (s.active, .ack) :: s.responses }
      ∧ (∀ k, k < 4 → m.read k = storedByte s.cfg a w v k (s.store.read k))
      ∧ ∀ k, 4 ≤ k → m.read k = s.store.read k := by
  obtain ⟨ks, hks, hrun⟩ := hrun
  refine ⟨(writeLanes a v ks s).store, ?_, fun k => read_writeLanes_perm s hks hw, fun k => read_writeLanes_high a v ks s⟩
  have hidle : ({ s with store := (writeLanes a v ks s).store } : State).agentIdle s.active = true :=
    (agentIdle_congr s _ s.active rfl rfl).trans (idle_of_admits op s h)
  rw [accept_of_admits op s run h, hrun, writeLanes_eq, answer_of_idle _ _ _ hidle]

/-- WR16 run to completion. -/
theorem exec_wr16 {a : Addr} {v : Word} {s : State} (h : s.admits 0x19#8 = true) (hps : 2 ≤ s.picks.length) :
    ∃ m, exec (.wr16 a v) s = .next { s with store := m, responses := (s.active, .ack) :: s.responses }
      ∧ (∀ k, k < 4 → m.read k = storedByte s.cfg a 2 v k (s.store.read k))
      ∧ ∀ k, 4 ≤ k → m.read k = s.store.read k :=
  accept_write h (by decide) (launch_busWrite a v h (by decide) (by decide) hps)

/-- Settles O11: whatever the order of the lanes, each store byte takes the one lane that reaches it. -/
theorem busWritesStoreTheirLanesOnly : Obligations.BusWritesStoreTheirLanesOnly := by
  intro addr v s
  refine ⟨fun h => ?_, exec_wr16, fun h hps => ?_⟩
  · exact accept_write (run := fun s => (memWrite addr 1 v s).answer s.active .ack) h (by decide)
      ⟨List.range 1, .refl _, by rw [memWrite_eq_writeLanes]⟩
  · exact accept_write h (by decide) (launch_busWrite addr v h (by decide) (by decide) hps)

/-! ### Writes of the registers -/

theorem laneOf_append (v : Word) : v.extractLsb' 0 16 = laneOf v 1 ++ laneOf v 0 := by
  have h : v.extractLsb' 8 8 ++ v.extractLsb' 0 8 = v.extractLsb' 0 (8 + 8) :=
    BitVec.extractLsb'_append_extractLsb'_eq_extractLsb' rfl
  exact h.symm

/-- A software write of STATUS's high byte is the write of STATUS under the mask (rule R32). -/
theorem maskStatusHigh_append (v : Word) (h l : Byte) :
    maskStatusHigh h (laneOf v 1) ++ l = ((h ++ l) &&& 0x1FFF#16) ||| (v.extractLsb' 0 16 &&& 0xE000#16) := by
  have hkeep : 0x1FFF#16 = 0x1F#8 ++ 0xFF#8 := rfl
  have htake : 0xE000#16 = 0xE0#8 ++ 0x00#8 := rfl
  have hl : l &&& 0xFF#8 = l := BitVec.and_allOnes
  rw [laneOf_append, hkeep, htake, BitVec.and_append, BitVec.and_append, BitVec.or_append, hl, BitVec.and_zero,
    BitVec.or_zero, maskStatusHigh]

/-- The lane of an access at `d` above the window's base that reaches `store[k]`. -/
theorem laneReaching_statusBase_add (c : Config) (d : Addr) (k : Nat) :
    laneReaching c (c.statusBase + d) k = (BitVec.ofNat 32 k - d).toNat := by
  rw [laneReaching, BitVec.add_comm, BitVec.add_sub_cancel]

/-- What a half-word write at STATUS's base leaves in each store byte. -/
theorem storedByte_status (c : Config) (v : Word) {k : Nat} (hk : k < 4) (old : Byte) :
    storedByte c c.statusBase 2 v k old = if k = 1 then maskStatusHigh old (laneOf v 1) else old := by
  have hbase : c.statusBase = c.statusBase + 0#32 := (BitVec.add_zero _).symm
  rw [storedByte_eq, hbase, laneReaching_statusBase_add]
  interval_cases k <;> rfl

/-- What a half-word write at DATA's base leaves in each store byte. -/
theorem storedByte_data (c : Config) (v : Word) {k : Nat} (hk : k < 4) (old : Byte) :
    storedByte c (dataBase c) 2 v k old = if k = 2 then laneOf v 0 else if k = 3 then 0#8 else old := by
  rw [storedByte_eq, dataBase, laneReaching_statusBase_add]
  interval_cases k <;> rfl

/-- Settles O12: at STATUS's base only lane 1 is stored, under the mask; at DATA's base lane 0 is stored and lane 1 stores
0x00. -/
theorem halfWordWritesOfTheRegisters : Obligations.HalfWordWritesOfTheRegisters := by
  intro v s h hps
  constructor
  · obtain ⟨m, hm, hlow, -⟩ := exec_wr16 (a := s.cfg.statusBase) (v := v) h hps
    have hread (k : Nat) (hk : k < 4) := (hlow k hk).trans (storedByte_status s.cfg v hk _)
    have h0 : m.read 0 = s.store.read 0 := hread 0 (by decide)
    have h1 : m.read 1 = maskStatusHigh (s.store.read 1) (laneOf v 1) := hread 1 (by decide)
    have h2 : m.read 2 = s.store.read 2 := hread 2 (by decide)
    have h3 : m.read 3 = s.store.read 3 := hread 3 (by decide)
    refine ⟨_, hm, ?_, by simp only [State.data, h2, h3]⟩
    simp only [State.status, h0, h1]
    exact maskStatusHigh_append v _ _
  · obtain ⟨m, hm, hlow, -⟩ := exec_wr16 (a := dataBase s.cfg) (v := v) h hps
    have hread (k : Nat) (hk : k < 4) := (hlow k hk).trans (storedByte_data s.cfg v hk _)
    have h0 : m.read 0 = s.store.read 0 := hread 0 (by decide)
    have h1 : m.read 1 = s.store.read 1 := hread 1 (by decide)
    have h2 : m.read 2 = laneOf v 0 := hread 2 (by decide)
    have h3 : m.read 3 = 0#8 := hread 3 (by decide)
    refine ⟨_, hm, ?_, by simp only [State.status, h0, h1]⟩
    simp only [State.data, h2, h3]
    exact (BitVec.setWidth_eq_append (by decide)).symm

/-! ### A read that tears -/

/-- A half-word read after one byte step, at any later state. -/
theorem microStep_busRead_one {addr : Addr} {t : State} {n k : Nat} {b : Byte} (q : Nat) (hk : k < 2)
    (hop : t.callerOp n = some (.busRead addr 2 [(k, b)])) :
    microStep (.caller n) q t = t.answer (.caller n)
      (.rdata ((if k = 0 then byteRead (byteAddr addr 1) t ++ b else b ++ byteRead (byteAddr addr 0) t).setWidth 32)) := by
  have hlanes : readLane addr 2 [(k, b)] q t = Table.put (1 - k) (byteRead (byteAddr addr (1 - k)) t) [(k, b)] := by
    rw [readLane, nextLane_two_one k b q hk]
  simp only [microStep, hop, stepCaller, stepBusRead, hlanes]
  interval_cases k
  · exact congrArg (fun v => t.answer (.caller n) (.rdata v)) (zeros_append_two _ _)
  · exact congrArg (fun v => t.answer (.caller n) (.rdata v)) (zeros_append_two _ _)

/-- Settles O14: the first pick chooses the lane, and the second step has one lane left, whatever its pick. -/
theorem halfWordReadMayTear : Obligations.HalfWordReadMayTear := by
  intro addr s n p hn h hp
  refine ⟨p % 2, rfl, ?_, fun t q hop => ?_⟩
  · have hlanes : readLane addr 2 [] p s = [(p % 2, byteRead (byteAddr addr (p % 2)) s)] := by
      rw [readLane, nextLane_two_nil]
      rfl
    refine (accept_of_admits _ s _ h).trans ?_
    rw [launch_of_caller _ hn, hp]
    simp only [runAgent_cons, runAgent_nil, microStep_setCaller, stepCaller, stepBusRead, readLane_setCaller, hlanes,
      setCaller_setCaller]
    rcases Nat.mod_two_eq_zero_or_one p with h0 | h0 <;> rw [h0] <;> rfl
  · rw [microStep_busRead_one q (Nat.mod_lt _ (by decide)) hop]
    rcases Nat.mod_two_eq_zero_or_one p with h0 | h0 <;> rw [h0] <;> rfl

end Sys2Proof.Machine
end

section
/-! The queue port and the queries (41_queue.md rules R130 to R137, 42_driver.md rules R156 to R160): single-step requests
on the ring, and the FIFO law. -/

namespace Sys2Proof.Machine

/-! ### Admission of a queue step -/

theorem queueDenied_of_fail {s : State} (h : s.cfg.stoppedQueuePolicy = .fail) : s.queueDenied = false := by
  simp [State.queueDenied, h]

theorem queueDenied_of_fault {s : State} (hq : s.qvalid = false) (h : s.cfg.stoppedQueuePolicy = .fault) :
    s.queueDenied = true := by
  simp [State.queueDenied, hq, h]

/-- An admitted request whose one step is a queue step that is not denied. -/
theorem accept_queueRequest {op : Byte} {act : State → State} {s : State} (h : s.admits op = true)
    (hd : s.queueDenied = false) : accept op s (queueRequest op act) = .next (act s) := by
  rw [accept_of_admits op s _ h, queueRequest, if_neg (by simp [hd])]

/-- The same of a step that leaves the state and hands over `r`. -/
theorem accept_queueRequest_answer {op : Byte} {act : State → State} {s : State} {r : Response}
    (h : s.admits op = true) (hd : s.queueDenied = false) (hact : act s = s.answer s.active r) :
    accept op s (queueRequest op act) = .next { s with responses := (s.active, r) :: s.responses } := by
  rw [accept_queueRequest h hd, hact, answer_of_idle _ _ s (idle_of_admits op s h)]

/-- On unallocated queues under the FAULT policy it records QUEUE_INVALID (rule R130). -/
theorem accept_queueRequest_denied {op : Byte} {act : State → State} {s : State} (h : s.admits op = true)
    (hq : s.qvalid = false) (hf : s.cfg.stoppedQueuePolicy = .fault) :
    accept op s (queueRequest op act) = .next { s with faults := addFault ⟨s.active, op, .queueInvalid⟩ s.faults } := by
  rw [accept_of_admits op s _ h, queueRequest, if_pos (queueDenied_of_fault hq hf),
    raiseFault_of_idle _ _ _ s (idle_of_admits op s h)]

theorem answer_setQueue_of_idle {s : State} {a : Agent} (sel : QueueSel) (q : Queue) (r : Response)
    (h : s.agentIdle a = true) :
    (s.setQueue sel q).answer a r = { s.setQueue sel q with responses := (a, r) :: s.responses } := by
  have hidle : (s.setQueue sel q).agentIdle a = true :=
    (agentIdle_congr s _ a (setQueue_callers sel q s) (setQueue_isr sel q s)).trans h
  rw [answer_of_idle a r _ hidle, setQueue_responses]

/-! ### QENQ and QDEQ -/

theorem queueOpcode_eq (sel : QueueSel) (fn : Byte) :
    queueOpcode sel fn = (0x20#8 ||| fn) ||| (if sel = .tx then 8#8 else 0#8) := by
  cases sel
  · simp [queueOpcode]
  · rw [queueOpcode, if_pos rfl, BitVec.or_assoc, BitVec.or_comm fn, ← BitVec.or_assoc]
    rfl

theorem enqAnswer_full {sel : QueueSel} {s : State} (hq : s.qvalid = true) (hc : (s.queue sel).count = s.cfg.qcap) :
    enqAnswer sel s = .full := by
  simp [enqAnswer, hq, hc]

theorem enqAnswer_ok {sel : QueueSel} {s : State} (hq : s.qvalid = true) (hc : (s.queue sel).count ≠ s.cfg.qcap) :
    enqAnswer sel s = .ok := by
  simp [enqAnswer, hq, hc]

theorem enqAnswer_fail {sel : QueueSel} {s : State} (hq : s.qvalid = false) : enqAnswer sel s = .fail := by
  simp [enqAnswer, hq]

theorem deqAnswer_empty {sel : QueueSel} {s : State} (hq : s.qvalid = true) (hc : (s.queue sel).count = 0) :
    deqAnswer sel s = .empty := by
  simp [deqAnswer, hq, hc]

theorem deqAnswer_ok {sel : QueueSel} {s : State} (hq : s.qvalid = true) (hc : (s.queue sel).count ≠ 0) :
    deqAnswer sel s = .ok := by
  simp [deqAnswer, hq, hc]

theorem deqAnswer_fail {sel : QueueSel} {s : State} (hq : s.qvalid = false) : deqAnswer sel s = .fail := by
  simp [deqAnswer, hq]

/-- Settles O15: each answer of QENQ has its condition, and the byte goes in exactly on OK. -/
theorem enqueueRequests : Obligations.EnqueueRequests := by
  intro sel b s h
  have hop : queueOpcode sel 0#8 = 0x20#8 ||| (if sel = .tx then 8#8 else 0#8) := queueOpcode_eq sel 0#8
  rw [← hop] at h
  have hidle := idle_of_admits _ s h
  refine ⟨fun hq hc => ?_, fun hq hc => ?_, fun hq hp => ?_, fun hq hp => accept_queueRequest_denied h hq hp⟩
  · have ha : enqAnswer sel s = .full := enqAnswer_full hq hc
    refine accept_queueRequest_answer h (queueDenied_of_valid s hq) ?_
    rw [enqState_of_not_ok _ _ _ (by simp [ha]), ha]
  · have ha : enqAnswer sel s = .ok := enqAnswer_ok hq hc
    refine (accept_queueRequest h (queueDenied_of_valid s hq)).trans (congrArg _ ?_)
    rw [enqState_of_ok _ _ _ ha, ha]
    exact answer_setQueue_of_idle sel _ _ hidle
  · have ha : enqAnswer sel s = .fail := enqAnswer_fail hq
    refine accept_queueRequest_answer h (queueDenied_of_fail hp) ?_
    rw [enqState_of_not_ok _ _ _ (by simp [ha]), ha]

/-- Settles O16: each answer of QDEQ has its condition, and a byte leaves exactly on OK. -/
theorem dequeueRequests : Obligations.DequeueRequests := by
  intro sel s h
  have hop : queueOpcode sel 1#8 = 0x21#8 ||| (if sel = .tx then 8#8 else 0#8) := queueOpcode_eq sel 1#8
  rw [← hop] at h
  have hidle := idle_of_admits _ s h
  refine ⟨fun hq hc => ?_, fun hq hc => ?_, fun hq hp => ?_, fun hq hp => accept_queueRequest_denied h hq hp⟩
  · have ha : deqAnswer sel s = .empty := deqAnswer_empty hq hc
    refine accept_queueRequest_answer h (queueDenied_of_valid s hq) ?_
    rw [deqState_of_not_ok _ _ (by simp [ha]), deqResponse, ha]
  · have ha : deqAnswer sel s = .ok := deqAnswer_ok hq hc
    refine (accept_queueRequest h (queueDenied_of_valid s hq)).trans (congrArg _ ?_)
    rw [deqState_of_ok _ _ ha, deqResponse, ha]
    exact answer_setQueue_of_idle sel _ _ hidle
  · have ha : deqAnswer sel s = .fail := deqAnswer_fail hq
    refine accept_queueRequest_answer h (queueDenied_of_fail hp) ?_
    rw [deqState_of_not_ok _ _ (by simp [ha]), deqResponse, ha]

/-! ### The queries -/

/-- A query's answer on allocated queues, on unallocated ones under the FAIL policy, and its fault under FAULT. -/
theorem accept_query {op : Byte} {s : State} (r : State → Response) (h : s.admits op = true) :
    (s.qvalid = true ∨ s.cfg.stoppedQueuePolicy = .fail →
      accept op s (queueRequest op fun s => s.answer s.active (r s))
        = .next { s with responses := (s.active, r s) :: s.responses })
    ∧ (s.qvalid = false → s.cfg.stoppedQueuePolicy = .fault →
      accept op s (queueRequest op fun s => s.answer s.active (r s))
        = .next { s with faults := addFault ⟨s.active, op, .queueInvalid⟩ s.faults }) := by
  refine ⟨fun hd => accept_queueRequest_answer h ?_ rfl, accept_queueRequest_denied h⟩
  exact hd.elim (queueDenied_of_valid s) queueDenied_of_fail

/-- The three clauses of a query, from what it answers when allocated (`x`) and when not (`y`). -/
theorem accept_query_clauses {op : Byte} {s : State} {r : State → Response} {x y : Response} (h : s.admits op = true)
    (hx : s.qvalid = true → r s = x) (hy : s.qvalid = false → r s = y) :
    (s.qvalid = true → accept op s (queueRequest op fun s => s.answer s.active (r s))
      = .next { s with responses := (s.active, x) :: s.responses })
    ∧ (s.qvalid = false → s.cfg.stoppedQueuePolicy = .fail →
      accept op s (queueRequest op fun s => s.answer s.active (r s))
        = .next { s with responses := (s.active, y) :: s.responses })
    ∧ (s.qvalid = false → s.cfg.stoppedQueuePolicy = .fault →
      accept op s (queueRequest op fun s => s.answer s.active (r s))
        = .next { s with faults := addFault ⟨s.active, op, .queueInvalid⟩ s.faults }) := by
  obtain ⟨hserved, hdenied⟩ := accept_query r h
  exact ⟨fun hq => hx hq ▸ hserved (.inl hq), fun hq hp => hy hq ▸ hserved (.inr hp), hdenied⟩

theorem queueFull_of_valid {sel : QueueSel} {s : State} (hq : s.qvalid = true) :
    queueFull sel s = decide ((s.queue sel).count = s.cfg.qcap) := by
  simp [queueFull, hq]

theorem queueFull_of_invalid {sel : QueueSel} {s : State} (hq : s.qvalid = false) : queueFull sel s = false := by
  simp [queueFull, hq]

theorem queueEmpty_of_valid {sel : QueueSel} {s : State} (hq : s.qvalid = true) :
    queueEmpty sel s = decide ((s.queue sel).count = 0) := by
  simp [queueEmpty, hq]

theorem queueEmpty_of_invalid {sel : QueueSel} {s : State} (hq : s.qvalid = false) : queueEmpty sel s = true := by
  simp [queueEmpty, hq]

theorem queueLen_of_valid {sel : QueueSel} {s : State} (hq : s.qvalid = true) :
    queueLen sel s = (s.queue sel).count := by
  simp [queueLen, hq]

theorem queueLen_of_invalid {sel : QueueSel} {s : State} (hq : s.qvalid = false) : queueLen sel s = 0 := by
  simp [queueLen, hq]

/-- Settles O17: each query answers from the occupancy, as of an empty queue when the queues are unallocated. -/
theorem queueQueries : Obligations.QueueQueries := by
  refine fun sel s => ⟨fun h => ?_, fun h => ?_, fun h => ?_⟩
  · exact accept_query_clauses (r := fun s => .flag (queueFull sel s)) h
      (fun hq => congrArg _ (queueFull_of_valid hq)) (fun hq => congrArg _ (queueFull_of_invalid hq))
  · exact accept_query_clauses (r := fun s => .flag (queueEmpty sel s)) h
      (fun hq => congrArg _ (queueEmpty_of_valid hq)) (fun hq => congrArg _ (queueEmpty_of_invalid hq))
  · exact accept_query_clauses (r := fun s => .count (countResult (queueLen sel s))) h
      (fun hq => by rw [queueLen_of_valid hq, countResult]) (fun hq => by rw [queueLen_of_invalid hq]; rfl)

/-- Settles O30: RXLEN and TXLEN are QLEN of their queue. -/
theorem queueLengthQueries : Obligations.QueueLengthQueries := by
  refine fun s => ⟨fun h => ?_, fun h => ?_⟩
  · exact accept_query_clauses (r := fun s => .count (countResult (queueLen .rx s))) h
      (fun hq => by rw [queueLen_of_valid hq]; rfl) (fun hq => by rw [queueLen_of_invalid hq]; rfl)
  · exact accept_query_clauses (r := fun s => .count (countResult (queueLen .tx s))) h
      (fun hq => by rw [queueLen_of_valid hq]; rfl) (fun hq => by rw [queueLen_of_invalid hq]; rfl)

/-- Settles O31: a scalar query hands over the scalar and does nothing else. -/
theorem scalarQueries : Obligations.ScalarQueries :=
  fun _ => ⟨fun h => accept_answer (run := fun s => s.answer s.active (.total s.bytesReceived)) h rfl,
    fun h => accept_answer (run := fun s => s.answer s.active (.flag s.receiveError)) h rfl,
    fun h => accept_answer (run := fun s => s.answer s.active (.flag s.transmitError)) h rfl⟩

/-! ### The FIFO law (rule R137) -/

/-- The cursors and the occupancy of a ring; its slots may hold anything (rule R35). -/
structure Queue.Ring (qcap : Nat) (q : Queue) : Prop where
  count_le : q.count ≤ qcap
  front_lt : q.front < qcap
  rear_eq : q.rear = (q.front + q.count) % qcap

theorem Queue.ring_of_wf {qcap : Nat} {q : Queue} (h : q.wf qcap = true) : q.Ring qcap := by
  obtain ⟨hcount, hfront, hrear, -⟩ := (Queue.wf_iff qcap q).mp h
  exact ⟨hcount, hfront, hrear⟩

theorem Queue.ring_construct {qcap : Nat} (h : 1 ≤ qcap) (q : Queue) : q.construct.Ring qcap :=
  ⟨Nat.zero_le _, h, (Nat.zero_mod qcap).symm⟩

namespace Queue.Ring
variable {qcap : Nat} {q : Queue}

theorem push (h : q.Ring qcap) (b : Byte) (hc : q.count ≠ qcap) : (q.push qcap b).Ring qcap where
  count_le := Nat.lt_of_le_of_ne h.count_le hc
  front_lt := h.front_lt
  rear_eq := by simp only [Queue.push]; rw [h.rear_eq, Nat.mod_add_mod, Nat.add_assoc]

theorem pop (h : q.Ring qcap) (hc : q.count ≠ 0) : (q.pop qcap).Ring qcap where
  count_le := (Nat.sub_le _ _).trans h.count_le
  front_lt := Nat.mod_lt _ (Nat.zero_lt_of_lt h.front_lt)
  rear_eq := by
    simp only [Queue.pop]
    rw [h.rear_eq, Nat.mod_add_mod]
    congr 1
    omega

/-- An accepted byte goes to the end of the content: the slot `rear` is none of the content's. -/
theorem items_push (h : q.Ring qcap) (b : Byte) (hc : q.count ≠ qcap) :
    (q.push qcap b).items qcap = q.items qcap ++ [b] := by
  have hlt : q.count < qcap := Nat.lt_of_le_of_ne h.count_le hc
  simp only [Queue.items, Queue.push, List.range_succ, List.map_append, List.map_cons, List.map_nil]
  congr 1
  · refine List.map_congr_left fun i hi => Memory.read_write_other _ ?_ b
    rw [h.rear_eq]
    exact ring_slot_ne qcap q.front i q.count (List.mem_range.mp hi) (by omega)
  · rw [← h.rear_eq, Memory.read_write_same]

theorem items_pop (h : q.Ring qcap) (hc : q.count ≠ 0) : q.items qcap = q.oldest :: (q.pop qcap).items qcap :=
  Queue.items_pop qcap q h.front_lt hc

end Queue.Ring

/-- What holds along a run of one queue: the queues stay allocated, the ring is sound, and the bytes accepted are those
returned and the content. -/
structure QueueTrace.Sound (sel : QueueSel) (qcap : Nat) (t : QueueTrace) : Prop where
  allocated : t.state.qvalid = true
  capacity : t.state.cfg.qcap = qcap
  ring : (t.state.queue sel).Ring qcap
  fifo : t.accepted = t.returned ++ (t.state.queue sel).items qcap

theorem QueueTrace.Sound.enq {sel : QueueSel} {qcap : Nat} {t : QueueTrace} (h : t.Sound sel qcap) (b : Byte) :
    (t.act sel (.enq b)).Sound sel qcap := by
  by_cases hc : (t.state.queue sel).count = t.state.cfg.qcap
  · have ha := enqAnswer_full h.allocated hc
    simpa only [QueueTrace.act, ha, enqState_of_not_ok sel b t.state (by simp [ha]), reduceCtorEq, if_false] using h
  · have ha := enqAnswer_ok h.allocated hc
    have hstate := enqState_of_ok sel b t.state ha
    rw [h.capacity] at hc hstate
    exact
      { allocated := by simp [QueueTrace.act, h.allocated]
        capacity := by simp [QueueTrace.act, h.capacity]
        ring := by
          simp only [QueueTrace.act, hstate, setQueue_queue_same]
          exact h.ring.push b hc
        fifo := by
          simp only [QueueTrace.act, hstate, setQueue_queue_same, ha, if_true, h.ring.items_push b hc, h.fifo,
            List.append_assoc] }

theorem QueueTrace.Sound.deq {sel : QueueSel} {qcap : Nat} {t : QueueTrace} (h : t.Sound sel qcap) :
    (t.act sel .deq).Sound sel qcap := by
  by_cases hc : (t.state.queue sel).count = 0
  · have ha := deqAnswer_empty h.allocated hc
    simpa only [QueueTrace.act, ha, deqState_of_not_ok sel t.state (by simp [ha]), reduceCtorEq, if_false] using h
  · have ha := deqAnswer_ok h.allocated hc
    have hstate := deqState_of_ok sel t.state ha
    rw [h.capacity] at hstate
    exact
      { allocated := by simp [QueueTrace.act, h.allocated]
        capacity := by simp [QueueTrace.act, h.capacity]
        ring := by
          simp only [QueueTrace.act, hstate, setQueue_queue_same]
          exact h.ring.pop hc
        fifo := by
          simp only [QueueTrace.act, hstate, setQueue_queue_same, ha, if_true, deqByte, h.fifo, h.ring.items_pop hc,
            List.append_assoc, List.singleton_append] }

theorem QueueTrace.Sound.foldl {sel : QueueSel} {qcap : Nat} (xs : List QueueAct) {t : QueueTrace}
    (h : t.Sound sel qcap) : (xs.foldl (QueueTrace.act sel) t).Sound sel qcap := by
  induction xs generalizing t with
  | nil => exact h
  | cons x xs ih =>
    cases x with
    | enq b => exact ih (h.enq b)
    | deq => exact ih h.deq

theorem QueueTrace.sound_run (sel : QueueSel) {s : State} (xs : List QueueAct) (hcap : 1 ≤ s.cfg.qcap)
    (hq : s.qvalid = true) : (QueueTrace.run sel s xs).Sound sel s.cfg.qcap := by
  refine QueueTrace.Sound.foldl xs ⟨by simpa using hq, by simp, ?_, ?_⟩
  · simpa only [setQueue_queue_same] using Queue.ring_construct hcap _
  · simp [Queue.items, Queue.construct]

/-- Settles O18: the law holds at construction and every queue operation keeps it. -/
theorem queueIsFirstInFirstOut : Obligations.QueueIsFirstInFirstOut := by
  intro sel s xs hcap hq
  obtain ⟨-, -, hring, hfifo⟩ := QueueTrace.sound_run sel xs hcap hq
  exact ⟨hring.count_le, hfifo, fun b h => (enqState_of_not_ok sel b _ h).symm, fun h => (deqState_of_not_ok sel _ h).symm⟩

end Sys2Proof.Machine
end

section
/-! The line side (44_line_side.md rules R200 to R203), the interrupt-request output (rule R230) and the closed gate of
SERVICE (rule R181). -/

namespace Sys2Proof.Machine

/-! ### The line side -/

/-- An idle agent's answer at a state with the same operations in flight. -/
theorem answer_of_block {s u : State} {a : Agent} (r : Response) (h : s.agentIdle a = true)
    (hcallers : u.callers = s.callers) (hisr : u.isr = s.isr) :
    u.answer a r = { u with responses := (a, r) :: u.responses } :=
  answer_of_idle a r u ((agentIdle_congr s u a hcallers hisr).trans h)

/-- An admitted request of one step that leaves one byte in the store. -/
theorem accept_storeByte {op : Byte} {run : State → State} {s : State} (k : Nat) (b : Byte) (h : s.admits op = true)
    (hrun : run s = { s with store := s.store.write k b }.answer s.active .ack) :
    ∃ st, accept op s run = .next { s with store := st, responses := (s.active, .ack) :: s.responses }
      ∧ st.read k = b ∧ ∀ j, j ≠ k → st.read j = s.store.read j := by
  refine ⟨s.store.write k b, ?_, Memory.read_write_same _ k b, fun j hj => Memory.read_write_other _ hj b⟩
  rw [accept_of_admits op s run h, hrun]
  exact congrArg _ (answer_of_block .ack (idle_of_admits op s h) rfl rfl)

/-- Settles O37: LFLAGS is one write of `store[0]`. -/
theorem lineFlagsDriveTheMaskedFlags : Obligations.LineFlagsDriveTheMaskedFlags :=
  fun m v s h => accept_storeByte (run := issue (.lflags m v)) 0 (driveFlags (s.store.read 0) m v) h rfl

/-- Settles O38: LRXDATA is one write of `store[2]`. -/
theorem lineReceiveDataSetsTheDataByte : Obligations.LineReceiveDataSetsTheDataByte :=
  fun b _ h => accept_storeByte (run := issue (.lrxdata b)) 2 b h rfl

/-- Settles O39: LPEEK hands over a store byte, LPOKE is one write of it. -/
theorem linePeekAndPoke : Obligations.LinePeekAndPoke :=
  fun k b _ => ⟨fun h => accept_answer (run := issue (.lpeek k)) h rfl,
    fun h => accept_storeByte (run := issue (.lpoke k b)) k.toNat (if k = 3#2 then 0#8 else b) h rfl⟩

/-! ### The interrupt-request output -/

/-- Settles O40: the output is a Boolean combination of GIE and STATUS bits. -/
theorem interruptRequestFormula : Obligations.InterruptRequestFormula := by
  intro s
  simp only [State.irq, rxError, rxNotEmpty, txNotFull, interruptEnable, rxEnable, txEnable, Bool.and_eq_true,
    Bool.or_eq_true, and_assoc, or_assoc]

/-! ### The closed gate -/

/-- An admitted request whose turn ends with an answer, at a state `u` with the operations in flight of `s`. -/
theorem exec_of_answers {i : Instr} {s u : State} {r : Response} (h : s.admits i.opcode = true)
    (hrun : runAgent s.active s.picks (issue i s) = u.answer s.active r) (hcallers : u.callers = s.callers)
    (hisr : u.isr = s.isr) :
    exec i s = .next { u with responses := (s.active, r) :: u.responses } := by
  rw [exec_eq_runAgent i s h, hrun, answer_of_block r (idle_of_admits _ s h) hcallers hisr]

/-- An admitted request whose turn ends with a model fault, at a state `u` with the operations in flight of `s`. -/
theorem exec_of_faults {i : Instr} {s u : State} {code : FaultCode} (h : s.admits i.opcode = true)
    (hrun : runAgent s.active s.picks (issue i s) = u.raiseFault s.active i.opcode code)
    (hcallers : u.callers = s.callers) (hisr : u.isr = s.isr) :
    exec i s = .next { u with faults := addFault ⟨s.active, i.opcode, code⟩ u.faults } := by
  rw [exec_eq_runAgent i s h, hrun,
    raiseFault_of_idle _ _ _ u ((agentIdle_congr s u _ hcallers hisr).trans (idle_of_admits _ s h))]

/-- An admitted request that answers in its first micro-step, from the state it was issued in. -/
theorem exec_of_first_step_answers {i : Instr} {s : State} {r : Response} (h : s.admits i.opcode = true)
    (hlen : 1 ≤ s.picks.length) (hstep : ∀ p ∈ s.picks.head?, microStep s.active p (issue i s) = s.answer s.active r) :
    exec i s = .next { s with responses := (s.active, r) :: s.responses } := by
  refine exec_of_answers h ?_ rfl rfl
  obtain ⟨p, ps, hp⟩ := List.exists_cons_of_length_pos hlen
  rw [hp, runAgent_cons, hstep p (by simp [hp]), runAgent_of_idle _ _ _ (agentIdle_answer _ _ s)]

/-- An admitted request that raises its fault in its first micro-step, from the state it was issued in. -/
theorem exec_of_first_step_faults {i : Instr} {s : State} {code : FaultCode} (h : s.admits i.opcode = true)
    (hlen : 1 ≤ s.picks.length)
    (hstep : ∀ p, microStep s.active p (issue i s) = s.raiseFault s.active i.opcode code) :
    exec i s = .next { s with faults := addFault ⟨s.active, i.opcode, code⟩ s.faults } := by
  refine exec_of_faults h ?_ rfl rfl
  obtain ⟨p, ps, hp⟩ := List.exists_cons_of_length_pos hlen
  rw [hp, runAgent_cons, hstep, runAgent_of_idle _ _ _ (agentIdle_raiseFault _ _ _ s)]

/-- Settles O33: with the gate closed, V0 answers under IGNORE and faults under FAULT. -/
theorem serviceWithTheGateClosed : Obligations.ServiceWithTheGateClosed := by
  intro s h hgie
  obtain ⟨hactive, -⟩ := isr_of_admits s h
  refine ⟨fun hp => exec_of_answers (i := .service) h ?_ rfl rfl, fun hp => exec_of_faults (i := .service) h ?_ rfl rfl⟩
  · have hissue : issue .service s = s.answer .isr .ack := by simp [issue, issueService, hgie, hp]
    rw [hissue, hactive, runAgent_of_idle _ _ _ (agentIdle_answer _ _ s)]
  · have hissue : issue .service s = s.raiseFault .isr 0x40#8 .gatedService := by simp [issue, issueService, hgie, hp]
    rw [hissue, hactive, runAgent_of_idle _ _ _ (agentIdle_raiseFault _ _ _ s)]
    rfl

end Sys2Proof.Machine
end

section
/-! START and STOP run to completion or to their fault (42_driver.md rules R150 to R152): the two byte steps of a half-word
access, the STATUS they write back, and the micro-steps in sequence. -/

namespace Sys2Proof.Machine

/-! ### Half-word accesses, in either lane order -/

/-- One byte step of a half-word access leaves one to go. -/
theorem lanesDone_two_first (p : Nat) (b : Byte) : lanesDone 2 (Table.put (nextLane 2 [] p) b []) = false := by
  have hlen : (lanesLeft 2 (Table.put (nextLane 2 [] p) b [])).length + 1 = 2 := by
    rw [length_lanesLeft_put 2 [] p b rfl, lanesLeft_nil, List.length_range]
  rw [lanesDone, List.isEmpty_eq_false_iff, ← List.length_pos_iff]
  omega

/-- The second byte step of a half-word access is its last. -/
theorem lanesDone_two_second {lanes : Lanes} (p q : Nat) (b c : Byte)
    (hlanes : lanes = Table.put (nextLane 2 [] p) b []) :
    lanesDone 2 (Table.put (nextLane 2 lanes q) c lanes) = true := by
  have hleft : lanesDone 2 lanes = false := hlanes ▸ lanesDone_two_first p b
  have hfirst : (lanesLeft 2 lanes).length + 1 = 2 := by
    rw [hlanes, length_lanesLeft_put 2 [] p b rfl, lanesLeft_nil, List.length_range]
  have hsecond := length_lanesLeft_put 2 lanes q c hleft
  rw [lanesDone, List.isEmpty_iff, ← List.length_eq_zero_iff]
  omega

theorem lanesDone_readLane_first (a : Addr) (p : Nat) (s : State) : lanesDone 2 (readLane a 2 [] p s) = false :=
  lanesDone_two_first p _

theorem lanesDone_readLane_second (a : Addr) (p q : Nat) (s t : State) :
    lanesDone 2 (readLane a 2 (readLane a 2 [] p s) q t) = true :=
  lanesDone_two_second p q _ _ rfl

theorem lanesDone_markLane_first (v : Word) (p : Nat) : lanesDone 2 (markLane v 2 [] p) = false :=
  lanesDone_two_first p _

theorem lanesDone_markLane_second (v : Word) (p q : Nat) : lanesDone 2 (markLane v 2 (markLane v 2 [] p) q) = true :=
  lanesDone_two_second p q _ _ rfl

/-- Both byte steps of a half-word read of one state assemble `MemRead`. -/
theorem assemble_readLane_two (a : Addr) (p q : Nat) (s : State) :
    assemble (readLane a 2 (readLane a 2 [] p s) q s) = memRead a 2 s :=
  assemble_eq_memRead (lanesRead_readLane q (lanesRead_readLane p (lanesRead_nil a 2 s) rfl)
    (lanesDone_readLane_first a p s)) (lanesDone_readLane_second a p q s s)

/-- Both byte steps of a half-word write are its two lanes in some order. -/
theorem writeLane_two (a : Addr) (v : Word) (p q : Nat) (s : State) :
    ∃ ks, ks.Perm (List.range 2)
      ∧ writeLane a v 2 (markLane v 2 [] p) q (writeLane a v 2 [] p s) = writeLanes a v ks s := by
  have hfirst : (nextLane 2 [] p :: lanesLeft 2 (markLane v 2 [] p)).Perm (List.range 2) :=
    lanesLeft_nil 2 ▸ lanesLeft_perm 2 [] p _ rfl
  have hsecond : (nextLane 2 (markLane v 2 [] p) q :: lanesLeft 2 (markLane v 2 (markLane v 2 [] p) q)).Perm
      (lanesLeft 2 (markLane v 2 [] p)) := lanesLeft_perm 2 _ q _ (lanesDone_markLane_first v p)
  have hnone : lanesLeft 2 (markLane v 2 (markLane v 2 [] p) q) = [] :=
    List.isEmpty_iff.mp (lanesDone_markLane_second v p q)
  rw [hnone] at hsecond
  exact ⟨[nextLane 2 [] p, nextLane 2 (markLane v 2 [] p) q], (hsecond.cons _).trans hfirst, rfl⟩

/-! ### The STATUS that START and STOP write back -/

/-- A half-word write at STATUS's base sets STATUS under the mask and keeps DATA (rule R32). -/
theorem read_writeLanes_status {s : State} {v : Word} {ks : List Nat} (hks : ks.Perm (List.range 2)) :
    (writeLanes s.cfg.statusBase v ks s).store.read 1 ++ (writeLanes s.cfg.statusBase v ks s).store.read 0
        = (s.status &&& 0x1FFF#16) ||| (v.extractLsb' 0 16 &&& 0xE000#16)
      ∧ ∀ k, 2 ≤ k → (writeLanes s.cfg.statusBase v ks s).store.read k = s.store.read k := by
  have hread (k : Nat) (hk : k < 4) := (read_writeLanes_perm s hks (by decide) hk).trans (storedByte_status s.cfg v hk _)
  refine ⟨?_, fun k hk => ?_⟩
  · rw [hread 0 (by decide), hread 1 (by decide)]
    exact maskStatusHigh_append v _ _
  · by_cases hk4 : k < 4
    · rw [hread k hk4, if_neg (by omega)]
    · exact read_writeLanes_high _ _ _ _ (by omega)

/-- The half-word that START and STOP read at STATUS's base. -/
theorem memRead_status (s : State) : memRead s.cfg.statusBase 2 s = s.status.setWidth 32 :=
  (windowReadsAreTheRegisters s).1

/-- The low bits of a zero-extended value are the value. -/
theorem extractLsb'_setWidth_of_le {w : Nat} (x : BitVec w) (hw : w ≤ 32) : (x.setWidth 32).extractLsb' 0 w = x := by
  ext i hi
  have hi32 : i < 32 := by omega
  simp [hi, hi32]

theorem status_enabled (x : Half) :
    (x &&& 0x1FFF#16) ||| ((enableBits (x.setWidth 32)).extractLsb' 0 16 &&& 0xE000#16) = x ||| 0xE000#16 := by
  have hlow : (enableBits (x.setWidth 32)).extractLsb' 0 16 = x ||| 0xE000#16 := by
    rw [enableBits, BitVec.extractLsb'_or, extractLsb'_setWidth_of_le x (by decide)]
    rfl
  rw [hlow]
  ext i hi
  interval_cases i <;> simp

theorem status_cleared (x : Half) :
    (x &&& 0x1FFF#16) ||| ((clearBits (x.setWidth 32)).extractLsb' 0 16 &&& 0xE000#16) = x &&& 0x1FFF#16 := by
  have hlow : (clearBits (x.setWidth 32)).extractLsb' 0 16 = x &&& 0x1FFF#16 := by
    rw [clearBits, BitVec.extractLsb'_and, extractLsb'_setWidth_of_le x (by decide)]
    rfl
  rw [hlow, BitVec.and_assoc]
  simp

/-! ### A caller's operation that ends with a fault -/

/-- The fault ends the operation: which one it was is forgotten. -/
@[simp] theorem raiseFault_setCaller (n : Nat) (op : CallerOp) (opcode : Byte) (code : FaultCode) (s : State) :
    (s.setCaller n op).raiseFault (.caller n) opcode code = s.raiseFault (.caller n) opcode code := by
  simp [State.raiseFault, State.setIdle, State.setCaller]

/-! ### START -/

/-- The block after START's S1, S2 and a read-modify-write of STATUS by the lanes `ks` (rule R151). -/
def enabled (ks : List Nat) (s : State) : State :=
  writeLanes s.cfg.statusBase (enableBits (s.status.setWidth 32)) ks (clearScalars (allocateQueues s))

/-- S3's two byte steps of the read, in either order. -/
theorem runAgent_start_read (n p q : Nat) (ps : List Nat) (s : State) :
    runAgent (.caller n) (p :: q :: ps) (s.setCaller n (.start (.s3Read [])))
      = runAgent (.caller n) ps (s.setCaller n (.start (.s3Write (s.status.setWidth 32) []))) := by
  simp only [runAgent_cons, microStep_setCaller, stepCaller, stepStart, stepStart3Read, readLane_setCaller,
    setCaller_setCaller, setCaller_cfg, lanesDone_readLane_first, lanesDone_readLane_second, assemble_readLane_two,
    memRead_status, Bool.false_eq_true, if_true, if_false]

/-- S3's two byte steps of the write, in either order. -/
theorem runAgent_start_write (n p q : Nat) (r : Word) (ps : List Nat) (s : State) :
    ∃ ks, ks.Perm (List.range 2)
      ∧ runAgent (.caller n) (p :: q :: ps) (s.setCaller n (.start (.s3Write r [])))
        = runAgent (.caller n) ps ((writeLanes s.cfg.statusBase (enableBits r) ks s).setCaller n (.start .s4)) := by
  obtain ⟨ks, hks, hwrite⟩ := writeLane_two s.cfg.statusBase (enableBits r) p q s
  refine ⟨ks, hks, ?_⟩
  simp only [runAgent_cons, microStep_setCaller, stepCaller, stepStart, stepStart3Write, writeLane_setCaller,
    setCaller_setCaller, setCaller_cfg, lanesDone_markLane_first, lanesDone_markLane_second, Bool.false_eq_true, if_true,
    if_false]
  exact congrArg (fun t => runAgent _ ps (t.setCaller n (.start .s4))) hwrite

/-- START from STOPPED with a draw that does not fail, run to completion. -/
theorem runAgent_start {n p1 p2 p3 p4 p5 p6 p7 : Nat} (ps : List Nat) {s : State} (hs : s.lifecycle = .stopped)
    (hdraw : (s.cfg.startMayFail && drawFails p1) = false) :
    ∃ ks, ks.Perm (List.range 2)
      ∧ runAgent (.caller n) (p1 :: p2 :: p3 :: p4 :: p5 :: p6 :: p7 :: ps) (s.setCaller n (.start .s1))
        = (openGate (enabled ks s)).answer (.caller n) (.dres .ok) := by
  obtain ⟨ks, hks, hwrite⟩ := runAgent_start_write n p5 p6 (s.status.setWidth 32) (p7 :: ps)
    (clearScalars (allocateQueues s))
  refine ⟨ks, hks, ?_⟩
  have hs1 : microStep (.caller n) p1 (s.setCaller n (.start .s1)) = (allocateQueues s).setCaller n (.start .s2) := by
    rw [microStep_setCaller, stepCaller, stepStart, stepStart1, setCaller_lifecycle, if_pos hs, setCaller_cfg, hdraw]
    exact setCaller_setCaller n _ _ (allocateQueues s)
  have hs2 (t : State) : microStep (.caller n) p2 (t.setCaller n (.start .s2))
      = (clearScalars t).setCaller n (.start (.s3Read [])) := by
    rw [microStep_setCaller]
    exact setCaller_setCaller n _ _ (clearScalars t)
  have hs4 (t : State) : microStep (.caller n) p7 (t.setCaller n (.start .s4))
      = (openGate t).answer (.caller n) (.dres .ok) := by
    rw [microStep_setCaller]
    exact answer_setCaller n _ _ (openGate t)
  rw [runAgent_cons, hs1, runAgent_cons, hs2, runAgent_start_read]
  refine hwrite.trans ?_
  rw [runAgent_cons, hs4, runAgent_of_idle _ _ _ (agentIdle_answer _ _ _)]
  rfl

theorem issue_start {n : Nat} {s : State} (h : s.active = .caller n) : issue .start s = s.setCaller n (.start .s1) := by
  simp only [issue, asCaller, h]

/-- The micro-steps of START from STOPPED with a draw that does not fail. -/
theorem runAgent_issue_start {n : Nat} {s : State} (hn : s.active = .caller n) (hs : s.lifecycle = .stopped)
    (hmay : s.cfg.startMayFail = false ∨ s.picks.head? = some 0) (hlen : 7 ≤ s.picks.length) :
    ∃ ks, ks.Perm (List.range 2)
      ∧ runAgent s.active s.picks (issue .start s) = (openGate (enabled ks s)).answer s.active (.dres .ok) := by
  match hp : s.picks, hlen with
  | p1 :: p2 :: p3 :: p4 :: p5 :: p6 :: p7 :: ps, _ =>
    have hdraw : (s.cfg.startMayFail && drawFails p1) = false := by
      rcases hmay with hmay | hhead
      · rw [hmay, Bool.false_and]
      · obtain rfl : p1 = 0 := by simpa [hp] using hhead
        exact Bool.and_false _
    rw [issue_start hn, hn]
    exact runAgent_start ps hs hdraw

theorem enabled_status {ks : List Nat} (hks : ks.Perm (List.range 2)) (s : State) :
    (enabled ks s).store.read 1 ++ (enabled ks s).store.read 0 = s.status ||| 0xE000#16
      ∧ ∀ k, 2 ≤ k → (enabled ks s).store.read k = s.store.read k := by
  obtain ⟨hread, hkeep⟩ := read_writeLanes_status (s := clearScalars (allocateQueues s))
    (v := enableBits (s.status.setWidth 32)) hks
  exact ⟨hread.trans (status_enabled s.status), hkeep⟩

/-- Settles O19: S1, S2, the read-modify-write of STATUS in any lane order, and S4. -/
theorem startOpensASession : Obligations.StartOpensASession := by
  intro s h hs hmay hlen
  obtain ⟨n, hn, -⟩ := caller_of_admits _ s h (by decide)
  obtain ⟨ks, hks, hrun⟩ := runAgent_issue_start hn hs hmay hlen
  refine ⟨(enabled ks s).store, ?_, enabled_status hks s⟩
  have hblock : enabled ks s = { clearScalars (allocateQueues s) with store := (enabled ks s).store } :=
    writeLanes_eq _ _ ks (clearScalars (allocateQueues s))
  rw [hblock] at hrun
  exact exec_of_answers (i := .start) h hrun rfl rfl

/-- Settles O20: S1 refuses START outside STOPPED, and a failed draw answers at once. -/
theorem startRefusedOrFailed : Obligations.StartRefusedOrFailed := by
  intro s h
  obtain ⟨n, hn, -⟩ := caller_of_admits _ s h (by decide)
  refine ⟨fun hs hlen => exec_of_first_step_faults (i := .start) h hlen fun p => ?_, fun hs hmay hpick => ?_⟩
  · rw [issue_start hn, hn, microStep_setCaller, stepCaller, stepStart, stepStart1, setCaller_lifecycle, if_neg hs,
      raiseFault_setCaller]
    rfl
  · obtain ⟨p, ps, hp, hne⟩ := hpick
    refine exec_of_first_step_answers (i := .start) h (by simp [hp]) fun p' hp' => ?_
    obtain rfl : p = p' := by simpa [hp] using hp'
    have hdraw : (s.cfg.startMayFail && drawFails p) = true := by simp [hmay, drawFails, hne]
    rw [issue_start hn, hn, microStep_setCaller, stepCaller, stepStart, stepStart1, setCaller_lifecycle, if_pos hs,
      setCaller_cfg, if_pos hdraw, answer_setCaller]

/-! ### STOP -/

/-- The block after STOP's T1 and a read-modify-write of STATUS by the lanes `ks` (rule R152). -/
def disabled (ks : List Nat) (s : State) : State :=
  writeLanes s.cfg.statusBase (clearBits (s.status.setWidth 32)) ks (closeGate s)

/-- T2's two byte steps of the read, in either order. -/
theorem runAgent_stop_read (n p q : Nat) (ps : List Nat) (s : State) :
    runAgent (.caller n) (p :: q :: ps) (s.setCaller n (.stop (.t2Read [])))
      = runAgent (.caller n) ps (s.setCaller n (.stop (.t2Write (s.status.setWidth 32) []))) := by
  simp only [runAgent_cons, microStep_setCaller, stepCaller, stepStop, stepStop2Read, readLane_setCaller,
    setCaller_setCaller, setCaller_cfg, lanesDone_readLane_first, lanesDone_readLane_second, assemble_readLane_two,
    memRead_status, Bool.false_eq_true, if_true, if_false]

/-- T2's two byte steps of the write, in either order. -/
theorem runAgent_stop_write (n p q : Nat) (r : Word) (ps : List Nat) (s : State) :
    ∃ ks, ks.Perm (List.range 2)
      ∧ runAgent (.caller n) (p :: q :: ps) (s.setCaller n (.stop (.t2Write r [])))
        = runAgent (.caller n) ps ((writeLanes s.cfg.statusBase (clearBits r) ks s).setCaller n (.stop .t3)) := by
  obtain ⟨ks, hks, hwrite⟩ := writeLane_two s.cfg.statusBase (clearBits r) p q s
  refine ⟨ks, hks, ?_⟩
  simp only [runAgent_cons, microStep_setCaller, stepCaller, stepStop, stepStop2Write, writeLane_setCaller,
    setCaller_setCaller, setCaller_cfg, lanesDone_markLane_first, lanesDone_markLane_second, Bool.false_eq_true, if_true,
    if_false]
  exact congrArg (fun t => runAgent _ ps (t.setCaller n (.stop .t3))) hwrite

/-- STOP from STARTED up to T3, which is the sixth micro-step. -/
theorem runAgent_stop {n p1 p2 p3 p4 p5 : Nat} (ps : List Nat) {s : State} (hs : s.lifecycle = .started) :
    ∃ ks, ks.Perm (List.range 2)
      ∧ runAgent (.caller n) (p1 :: p2 :: p3 :: p4 :: p5 :: ps) (s.setCaller n (.stop .t1))
        = runAgent (.caller n) ps ((disabled ks s).setCaller n (.stop .t3)) := by
  obtain ⟨ks, hks, hwrite⟩ := runAgent_stop_write n p4 p5 (s.status.setWidth 32) ps (closeGate s)
  refine ⟨ks, hks, ?_⟩
  have ht1 : microStep (.caller n) p1 (s.setCaller n (.stop .t1)) = (closeGate s).setCaller n (.stop (.t2Read [])) := by
    rw [microStep_setCaller, stepCaller, stepStop, stepStop1, setCaller_lifecycle, if_pos hs]
    exact setCaller_setCaller n _ _ (closeGate s)
  rw [runAgent_cons, ht1, runAgent_stop_read]
  exact hwrite

theorem Table.any_erase {α : Type} (p : Nat × α → Bool) (k : Nat) (t : List (Nat × α)) (hp : ∀ v, p (k, v) = false) :
    (Table.erase k t).any p = t.any p := by
  induction t with
  | nil => rfl
  | cons c t ih =>
    obtain ⟨i, w⟩ := c
    rw [Table.erase_cons]
    split
    · next hi => rw [ih, List.any_cons, hi, hp, Bool.false_or]
    · rw [List.any_cons, ih, List.any_cons]

theorem Table.any_insert {α : Type} (p : Nat × α → Bool) (k : Nat) (v : α) (t : List (Nat × α)) :
    (Table.insert k v t).any p = (p (k, v) || t.any p) := by
  induction t with
  | nil => rfl
  | cons c t ih =>
    obtain ⟨i, w⟩ := c
    rw [Table.insert_cons]
    split
    · rfl
    · rw [List.any_cons, ih, List.any_cons, Bool.or_left_comm]

/-- The caller that stops does not count itself (rule R152). -/
theorem inUse_setCaller (n : Nat) (op : CallerOp) (s : State) : (s.setCaller n op).inUse n = s.inUse n := by
  have hself (c : CallerOp) : (decide (((n, c) : Nat × CallerOp).1 ≠ n) && c.usesQueue) = false := by simp
  rw [State.inUse, setCaller_callers, setCaller_isr, Table.put, Table.any_insert, hself, Bool.false_or,
    Table.any_erase _ _ _ hself, State.inUse]

theorem inUse_disabled (ks : List Nat) (n : Nat) (s : State) : (disabled ks s).inUse n = s.inUse n := by
  rw [disabled, writeLanes_eq]
  rfl

theorem issue_stop {n : Nat} {s : State} (h : s.active = .caller n) : issue .stop s = s.setCaller n (.stop .t1) := by
  simp only [issue, asCaller, h]

/-- The micro-steps of STOP from STARTED, T3 included. -/
theorem runAgent_issue_stop {n : Nat} {s : State} (hn : s.active = .caller n) (hs : s.lifecycle = .started)
    (hlen : 6 ≤ s.picks.length) :
    ∃ ks, ks.Perm (List.range 2)
      ∧ runAgent s.active s.picks (issue .stop s)
        = if s.inUse n then (disabled ks s).raiseFault s.active 0x31#8 .destroyInUse
          else (destroyQueues (disabled ks s)).answer s.active .ack := by
  match hp : s.picks, hlen with
  | p1 :: p2 :: p3 :: p4 :: p5 :: p6 :: ps, _ =>
    obtain ⟨ks, hks, hrun⟩ := runAgent_stop (n := n) (p6 :: ps) hs
    refine ⟨ks, hks, ?_⟩
    rw [issue_stop hn, hn, hrun, runAgent_cons, microStep_setCaller, stepCaller, stepStop, stepStop3, inUse_setCaller,
      inUse_disabled, raiseFault_setCaller]
    split
    · exact runAgent_of_idle _ _ _ (agentIdle_raiseFault _ _ _ _)
    · exact (runAgent_of_idle _ _ _ (agentIdle_answer _ _ _)).trans (answer_setCaller n _ _ (destroyQueues (disabled ks s)))

theorem disabled_status {ks : List Nat} (hks : ks.Perm (List.range 2)) (s : State) :
    (disabled ks s).store.read 1 ++ (disabled ks s).store.read 0 = s.status &&& 0x1FFF#16
      ∧ ∀ k, 2 ≤ k → (disabled ks s).store.read k = s.store.read k := by
  obtain ⟨hread, hkeep⟩ := read_writeLanes_status (s := closeGate s) (v := clearBits (s.status.setWidth 32)) hks
  exact ⟨hread.trans (status_cleared s.status), hkeep⟩

/-- Settles O21: T1, the read-modify-write of STATUS in any lane order, and T3 with no queue in use. -/
theorem stopEndsTheSession : Obligations.StopEndsTheSession := by
  intro n s hn h hs huse hlen
  obtain ⟨ks, hks, hrun⟩ := runAgent_issue_stop hn hs hlen
  rw [huse, if_neg Bool.false_ne_true] at hrun
  refine ⟨(disabled ks s).store, ?_, disabled_status hks s⟩
  have hblock : disabled ks s = { closeGate s with store := (disabled ks s).store } := writeLanes_eq _ _ ks (closeGate s)
  rw [hblock] at hrun
  exact exec_of_answers (i := .stop) h hrun rfl rfl

/-- Settles O22: T1 refuses STOP outside STARTED, and T3 with a queue in use. -/
theorem stopRefusedOrInUse : Obligations.StopRefusedOrInUse := by
  intro n s hn h
  refine ⟨fun hs hlen => exec_of_first_step_faults (i := .stop) h hlen fun p => ?_, fun hs huse hlen => ?_⟩
  · rw [issue_stop hn, hn, microStep_setCaller, stepCaller, stepStop, stepStop1, setCaller_lifecycle, if_neg hs,
      raiseFault_setCaller]
    rfl
  · obtain ⟨ks, hks, hrun⟩ := runAgent_issue_stop hn hs hlen
    rw [huse, if_pos rfl] at hrun
    refine ⟨(disabled ks s).store, ?_, disabled_status hks s⟩
    have hblock : disabled ks s = { closeGate s with store := (disabled ks s).store } :=
      writeLanes_eq _ _ ks (closeGate s)
    rw [hblock] at hrun
    exact exec_of_faults (i := .stop) h hrun rfl rfl

end Sys2Proof.Machine
end

section
/-! WRITEB, READB and READNB (42_driver.md rules R153 to R155, R161): one queue step per micro-step, up to the last byte,
to a full or an empty queue, or to a failure. -/

namespace Sys2Proof.Machine

/-! ### Several bytes in and out of a ring -/

/-- The ring after the bytes `bs`, in order. -/
def Queue.pushes (qcap : Nat) (bs : List Byte) (q : Queue) : Queue := bs.foldl (fun q b => q.push qcap b) q

/-- The ring without its `k` oldest bytes. -/
def Queue.pops (qcap : Nat) : Nat → Queue → Queue
  | 0, q => q
  | k + 1, q => Queue.pops qcap k (q.pop qcap)

theorem Queue.count_pushes (qcap : Nat) (bs : List Byte) (q : Queue) :
    (q.pushes qcap bs).count = q.count + bs.length := by
  induction bs generalizing q with
  | nil => rfl
  | cons b bs ih => exact (ih (q.push qcap b)).trans (Nat.add_right_comm _ _ _)

theorem Queue.count_pops (qcap k : Nat) (q : Queue) : (q.pops qcap k).count = q.count - k := by
  induction k generalizing q with
  | zero => rfl
  | succ k ih =>
    rw [Queue.pops, ih]
    simp only [Queue.pop]
    omega

namespace Queue.Ring
variable {qcap : Nat} {q : Queue}

theorem items_pushes (h : q.Ring qcap) (bs : List Byte) (hc : q.count + bs.length ≤ qcap) :
    (q.pushes qcap bs).items qcap = q.items qcap ++ bs := by
  induction bs generalizing q with
  | nil => exact (List.append_nil _).symm
  | cons b bs ih =>
    rw [List.length_cons] at hc
    have hroom : q.count ≠ qcap := by omega
    have hrest : (q.push qcap b).count + bs.length ≤ qcap := by simp only [Queue.push]; omega
    calc (q.pushes qcap (b :: bs)).items qcap
        = (q.push qcap b).items qcap ++ bs := ih (h.push b hroom) hrest
      _ = q.items qcap ++ b :: bs := by rw [h.items_push b hroom, List.append_assoc, List.singleton_append]

theorem items_pops (h : q.Ring qcap) {k : Nat} (hk : k ≤ q.count) :
    (q.pops qcap k).items qcap = (q.items qcap).drop k := by
  induction k generalizing q with
  | zero => rfl
  | succ k ih =>
    have hne : q.count ≠ 0 := by omega
    have hrest : k ≤ (q.pop qcap).count := by simp only [Queue.pop]; omega
    rw [Queue.pops, ih (h.pop hne) hrest, h.items_pop hne, List.drop_succ_cons]

end Queue.Ring

/-! ### Micro-steps that change nothing -/

/-- An agent whose micro-step is a retry stays where it is for the rest of its turn (rule R161). -/
theorem runAgent_of_waiting {a : Agent} {s : State} (h : ∀ p, microStep a p s = s) (ps : List Nat) :
    runAgent a ps s = s :=
  runAgent_keeps (· = s) a (fun p _ ht => ht.symm ▸ h p) ps s rfl

/-! ### WRITEB -/

section Write
variable {n i : Nat} {bytes : List Byte} {s : State}

theorem loopWriteb_of_more (hi : i < bytes.length) (s : State) :
    loopWriteb n bytes i s = s.setCaller n (.writeb bytes i) := if_pos hi

theorem loopWriteb_length (n : Nat) (bytes : List Byte) (s : State) :
    loopWriteb n bytes bytes.length s = s.answer (.caller n) (.dres .ok) := if_neg (Nat.lt_irrefl _)

theorem loopWriteb_setCaller (op : CallerOp) :
    loopWriteb n bytes i (s.setCaller n op) = loopWriteb n bytes i s := by
  simp only [loopWriteb, setCaller_setCaller, answer_setCaller]

/-- An attempt with room sends the next byte. -/
theorem microStep_loopWriteb (p : Nat) (hi : i < bytes.length) (hq : s.qvalid = true) (hc : s.txq.count ≠ s.cfg.qcap) :
    microStep (.caller n) p (loopWriteb n bytes i s)
      = loopWriteb n bytes (i + 1) (s.setQueue .tx (s.txq.push s.cfg.qcap bytes[i])) := by
  have hd : (s.setCaller n (.writeb bytes i)).queueDenied = false := queueDenied_of_valid _ hq
  have ha : enqAnswer .tx (s.setCaller n (.writeb bytes i)) = .ok := enqAnswer_ok hq hc
  rw [loopWriteb_of_more hi, microStep_setCaller, stepCaller, stepWriteb, hd, if_neg Bool.false_ne_true, ha,
    enqState_of_ok _ _ _ ha, List.getD_eq_getElem _ _ hi]
  exact loopWriteb_setCaller (s := s.setQueue .tx (s.txq.push s.cfg.qcap bytes[i])) _

/-- An attempt on a full queue is a retry. -/
theorem microStep_writeb_full (p : Nat) (hq : s.qvalid = true) (hc : s.txq.count = s.cfg.qcap) :
    microStep (.caller n) p (s.setCaller n (.writeb bytes i)) = s.setCaller n (.writeb bytes i) := by
  have hd : (s.setCaller n (.writeb bytes i)).queueDenied = false := queueDenied_of_valid _ hq
  have ha : enqAnswer .tx (s.setCaller n (.writeb bytes i)) = .full := enqAnswer_full hq hc
  rw [microStep_setCaller, stepCaller, stepWriteb, hd, if_neg Bool.false_ne_true, ha]

/-- As many attempts as there is room for send the next bytes. -/
theorem runAgent_writeb (ps : List Nat) (hq : s.qvalid = true) (hi : i + ps.length ≤ bytes.length)
    (hc : s.txq.count + ps.length ≤ s.cfg.qcap) :
    runAgent (.caller n) ps (loopWriteb n bytes i s)
      = loopWriteb n bytes (i + ps.length)
          (s.setQueue .tx (s.txq.pushes s.cfg.qcap ((bytes.drop i).take ps.length))) := by
  induction ps generalizing i s with
  | nil => rfl
  | cons p ps ih =>
    rw [List.length_cons] at hi hc
    have hlt : i < bytes.length := by omega
    have hroom : (s.txq.push s.cfg.qcap bytes[i]).count + ps.length ≤ s.cfg.qcap := by
      simp only [Queue.push]
      omega
    rw [runAgent_cons, microStep_loopWriteb p hlt hq (by omega),
      ih (s := s.setQueue .tx (s.txq.push s.cfg.qcap bytes[i])) hq (by omega) hroom, List.length_cons,
      List.drop_eq_getElem_cons hlt, List.take_succ_cons, Nat.add_right_comm i 1, ← Nat.add_assoc]
    rfl

end Write

theorem issue_writeb {n : Nat} {s : State} (len : Word) (bytes : List Byte) (h : s.active = .caller n) :
    issue (.writeb len bytes) s = loopWriteb n bytes 0 s := by
  simp only [issue, asCaller, h]

/-- The first `k` micro-steps of WRITEB, with room for as many bytes. -/
theorem runAgent_issue_writeb {n k : Nat} {bytes : List Byte} {s : State} (len : Word) (hn : s.active = .caller n)
    (hq : s.qvalid = true) (hk : k ≤ bytes.length) (hc : s.txq.count + k ≤ s.cfg.qcap) (hlen : k ≤ s.picks.length) :
    runAgent s.active s.picks (issue (.writeb len bytes) s)
      = runAgent (.caller n) (s.picks.drop k)
          (loopWriteb n bytes k (s.setQueue .tx (s.txq.pushes s.cfg.qcap (bytes.take k)))) := by
  have htake : (s.picks.take k).length = k := List.length_take_of_le hlen
  have hsplit : runAgent s.active s.picks (issue (.writeb len bytes) s)
      = runAgent (.caller n) (s.picks.drop k) (runAgent (.caller n) (s.picks.take k) (loopWriteb n bytes 0 s)) := by
    rw [issue_writeb len bytes hn, ← runAgent_append, List.take_append_drop, hn]
  rw [hsplit, runAgent_writeb _ hq (by omega) (by omega), htake, List.drop_zero, Nat.zero_add]

/-- Settles O23: every micro-step of the loop sends a byte, and the last one answers. -/
theorem writeAppendsToTheTransmitQueue : Obligations.WriteAppendsToTheTransmitQueue := by
  intro len bytes s _ h hq hwf hroom hlen
  obtain ⟨n, hn, -⟩ := caller_of_admits _ s h (by decide)
  refine ⟨s.txq.pushes s.cfg.qcap bytes, exec_of_answers (i := .writeb len bytes)
    (u := s.setQueue .tx (s.txq.pushes s.cfg.qcap bytes)) h ?_ rfl rfl,
    (Queue.ring_of_wf hwf).items_pushes bytes hroom, Queue.count_pushes _ _ _⟩
  rw [runAgent_issue_writeb len hn hq le_rfl hroom hlen, List.take_length, loopWriteb_length,
    runAgent_of_idle _ _ _ (agentIdle_answer _ _ _), hn]

/-- Settles O24: the loop sends what there is room for, and every further micro-step is a retry on a full queue. -/
theorem writeWaitsOnAFullQueue : Obligations.WriteWaitsOnAFullQueue := by
  intro n len bytes s _ hn h hq hwf hbeyond hlen
  have hring := Queue.ring_of_wf hwf
  have hcount := hring.count_le
  obtain ⟨k, hk⟩ : ∃ k, k = s.cfg.qcap - s.txq.count := ⟨_, rfl⟩
  rw [← hk] at hlen ⊢
  have hlt : k < bytes.length := by omega
  have htake : (bytes.take k).length = k := List.length_take_of_le hlt.le
  have hfull : (s.txq.pushes s.cfg.qcap (bytes.take k)).count = s.cfg.qcap := by
    rw [Queue.count_pushes, htake]
    omega
  have hwaits (p : Nat) := microStep_writeb_full (n := n) (i := k) (bytes := bytes)
    (s := s.setQueue .tx (s.txq.pushes s.cfg.qcap (bytes.take k))) p hq hfull
  refine ⟨s.txq.pushes s.cfg.qcap (bytes.take k), _, ?_, rfl, hring.items_pushes _ (by omega), hfull, hwaits⟩
  refine (exec_eq_runAgent (.writeb len bytes) s h).trans (congrArg _ ?_)
  rw [runAgent_issue_writeb len hn hq hlt.le (by omega) hlen, loopWriteb_of_more hlt]
  exact runAgent_of_waiting hwaits _

/-- Settles O25: the loop of no bytes answers at its head, and the first attempt on unallocated queues fails. -/
theorem writeOfNothingAndWriteFailure : Obligations.WriteOfNothingAndWriteFailure := by
  intro len b bytes s h
  obtain ⟨n, hn, -⟩ := caller_of_admits _ s h (by decide)
  refine ⟨exec_of_answers (i := .writeb 0#32 []) h ?_ rfl rfl, fun hq hp hlen =>
    exec_of_first_step_answers (i := .writeb len (b :: bytes)) h hlen fun p _ => ?_, fun hq hp hlen =>
    exec_of_first_step_faults (i := .writeb len (b :: bytes)) h hlen fun p => ?_⟩
  · rw [issue_writeb _ _ hn, hn]
    exact runAgent_of_idle _ _ _ (agentIdle_answer _ _ s)
  · have hd : (s.setCaller n (.writeb (b :: bytes) 0)).queueDenied = false := queueDenied_of_fail hp
    have ha : enqAnswer .tx (s.setCaller n (.writeb (b :: bytes) 0)) = .fail := enqAnswer_fail hq
    rw [issue_writeb _ _ hn, hn, loopWriteb_of_more (Nat.succ_pos _), microStep_setCaller, stepCaller, stepWriteb, hd,
      if_neg Bool.false_ne_true, ha, answer_setCaller]
  · have hd : (s.setCaller n (.writeb (b :: bytes) 0)).queueDenied = true := queueDenied_of_fault hq hp
    rw [issue_writeb _ _ hn, hn, loopWriteb_of_more (Nat.succ_pos _), microStep_setCaller, stepCaller, stepWriteb, hd,
      if_pos rfl, raiseFault_setCaller]
    rfl

/-! ### READB and READNB -/

section Read
variable {n count : Nat} {out : List Byte} {s : State}

theorem loopReadb_of_more (h : out.length < count) (s : State) :
    loopReadb n count out s = s.setCaller n (.readb count out) := if_pos h

theorem loopReadb_of_done (h : count ≤ out.length) (s : State) :
    loopReadb n count out s = s.answer (.caller n) (.rbytes out) := if_neg (Nat.not_lt_of_le h)

theorem loopReadb_setCaller (op : CallerOp) : loopReadb n count out (s.setCaller n op) = loopReadb n count out s := by
  simp only [loopReadb, setCaller_setCaller, answer_setCaller]

theorem loopReadnb_of_more (h : out.length < count) (s : State) :
    loopReadnb n count out s = s.setCaller n (.readnb count out) := if_pos h

theorem loopReadnb_of_done (h : count ≤ out.length) (s : State) :
    loopReadnb n count out s = s.answer (.caller n) (.rpartial out (countResult out.length)) :=
  if_neg (Nat.not_lt_of_le h)

theorem loopReadnb_setCaller (op : CallerOp) :
    loopReadnb n count out (s.setCaller n op) = loopReadnb n count out s := by
  simp only [loopReadnb, setCaller_setCaller, answer_setCaller]

/-- A loop that takes `count` bytes from RXQ, one per micro-step, while there are any. -/
def TakesBytes (n count : Nat) (loop : List Byte → State → State) : Prop :=
  ∀ (p : Nat) (out : List Byte) (s : State), out.length < count → s.qvalid = true → s.rxq.count ≠ 0 →
    microStep (.caller n) p (loop out s) = loop (out ++ [s.rxq.oldest]) (s.setQueue .rx (s.rxq.pop s.cfg.qcap))

theorem takesBytes_loopReadb (n count : Nat) : TakesBytes n count (loopReadb n count) := by
  intro p out s hlen hq hc
  have hd : (s.setCaller n (.readb count out)).queueDenied = false := queueDenied_of_valid _ hq
  have ha : deqAnswer .rx (s.setCaller n (.readb count out)) = .ok := deqAnswer_ok hq hc
  rw [loopReadb_of_more hlen, microStep_setCaller, stepCaller, stepReadb, hd, if_neg Bool.false_ne_true, ha,
    deqState_of_ok _ _ ha]
  exact loopReadb_setCaller (s := s.setQueue .rx (s.rxq.pop s.cfg.qcap)) _

theorem takesBytes_loopReadnb (n count : Nat) : TakesBytes n count (loopReadnb n count) := by
  intro p out s hlen hq hc
  have hd : (s.setCaller n (.readnb count out)).queueDenied = false := queueDenied_of_valid _ hq
  have ha : deqAnswer .rx (s.setCaller n (.readnb count out)) = .ok := deqAnswer_ok hq hc
  rw [loopReadnb_of_more hlen, microStep_setCaller, stepCaller, stepReadnb, hd, if_neg Bool.false_ne_true, ha,
    deqState_of_ok _ _ ha]
  exact loopReadnb_setCaller (s := s.setQueue .rx (s.rxq.pop s.cfg.qcap)) _

/-- As many attempts as RXQ holds bytes take the oldest ones in order. -/
theorem TakesBytes.runAgent_all {loop : List Byte → State → State} (h : TakesBytes n count loop) (ps : List Nat)
    (hq : s.qvalid = true) (hring : s.rxq.Ring s.cfg.qcap) (hlen : out.length + ps.length ≤ count)
    (hc : ps.length ≤ s.rxq.count) :
    runAgent (.caller n) ps (loop out s)
      = loop (out ++ (s.rxq.items s.cfg.qcap).take ps.length)
          (s.setQueue .rx (s.rxq.pops s.cfg.qcap ps.length)) := by
  induction ps generalizing out s with
  | nil => rw [List.length_nil, List.take_zero, List.append_nil]; rfl
  | cons p ps ih =>
    rw [List.length_cons] at hlen hc
    have hne : s.rxq.count ≠ 0 := by omega
    have hrest : ps.length ≤ (s.rxq.pop s.cfg.qcap).count := by simp only [Queue.pop]; omega
    have hout : (out ++ [s.rxq.oldest]).length + ps.length ≤ count := by simp; omega
    rw [runAgent_cons, h p out s (by omega) hq hne,
      ih (s := s.setQueue .rx (s.rxq.pop s.cfg.qcap)) hq (hring.pop hne) hout hrest,
      List.length_cons, hring.items_pop hne, List.take_succ_cons, List.append_assoc, List.singleton_append]
    rfl

/-- The first `k` micro-steps of a read of at least `k` bytes from an RXQ that holds as many. -/
theorem TakesBytes.runAgent_take {loop : List Byte → State → State} {k : Nat} (h : TakesBytes n count loop)
    (hq : s.qvalid = true) (hwf : s.rxq.wf s.cfg.qcap = true) (hk : k ≤ count) (hc : k ≤ s.rxq.count)
    (hlen : k ≤ s.picks.length) :
    runAgent (.caller n) s.picks (loop [] s)
      = runAgent (.caller n) (s.picks.drop k)
          (loop ((s.rxq.items s.cfg.qcap).take k) (s.setQueue .rx (s.rxq.pops s.cfg.qcap k))) := by
  have htake : (s.picks.take k).length = k := List.length_take_of_le hlen
  have hsplit : runAgent (.caller n) s.picks (loop [] s)
      = runAgent (.caller n) (s.picks.drop k) (runAgent (.caller n) (s.picks.take k) (loop [] s)) := by
    rw [← runAgent_append, List.take_append_drop]
  rw [hsplit, h.runAgent_all _ hq (Queue.ring_of_wf hwf) (by simp [htake, hk]) (by omega), htake, List.nil_append]

/-- An attempt of READB on an empty queue is a retry. -/
theorem microStep_readb_empty (p : Nat) (hq : s.qvalid = true) (hc : s.rxq.count = 0) :
    microStep (.caller n) p (s.setCaller n (.readb count out)) = s.setCaller n (.readb count out) := by
  have hd : (s.setCaller n (.readb count out)).queueDenied = false := queueDenied_of_valid _ hq
  have ha : deqAnswer .rx (s.setCaller n (.readb count out)) = .empty := deqAnswer_empty hq hc
  rw [microStep_setCaller, stepCaller, stepReadb, hd, if_neg Bool.false_ne_true, ha]

/-- An attempt of READNB on an empty queue ends the call. -/
theorem microStep_readnb_empty (p : Nat) (hq : s.qvalid = true) (hc : s.rxq.count = 0) :
    microStep (.caller n) p (s.setCaller n (.readnb count out))
      = s.answer (.caller n) (.rpartial out (countResult out.length)) := by
  have hd : (s.setCaller n (.readnb count out)).queueDenied = false := queueDenied_of_valid _ hq
  have ha : deqAnswer .rx (s.setCaller n (.readnb count out)) = .empty := deqAnswer_empty hq hc
  rw [microStep_setCaller, stepCaller, stepReadnb, hd, if_neg Bool.false_ne_true, ha]
  exact answer_setCaller _ _ _ s

end Read

theorem issue_readb {n : Nat} {s : State} (count : Word) (h : s.active = .caller n) :
    issue (.readb count) s = loopReadb n count.toNat [] s := by
  simp only [issue, asCaller, h]

theorem issue_readnb {n : Nat} {s : State} (count : Word) (h : s.active = .caller n) :
    issue (.readnb count) s = loopReadnb n count.toNat [] s := by
  simp only [issue, asCaller, h]

/-- Settles O26: every micro-step of the loop takes a byte, and the last one answers. -/
theorem blockingReadTakesTheOldestBytes : Obligations.BlockingReadTakesTheOldestBytes := by
  intro count s h hq hwf hc hlen
  obtain ⟨n, hn, -⟩ := caller_of_admits _ s h (by decide)
  refine ⟨s.rxq.pops s.cfg.qcap count.toNat, exec_of_answers (i := .readb count)
    (u := s.setQueue .rx (s.rxq.pops s.cfg.qcap count.toNat)) h ?_ rfl rfl,
    (Queue.ring_of_wf hwf).items_pops hc, Queue.count_pops _ _ _⟩
  rw [issue_readb count hn, hn, TakesBytes.runAgent_take (takesBytes_loopReadb n count.toNat) hq hwf le_rfl hc hlen,
    loopReadb_of_done (by simp [hc]), runAgent_of_idle _ _ _ (agentIdle_answer _ _ _)]

/-- Settles O27: the loop takes what there is, and every further micro-step is a retry on an empty queue. -/
theorem blockingReadWaitsOnAnEmptyQueue : Obligations.BlockingReadWaitsOnAnEmptyQueue := by
  intro n count s hn h hq hwf hbeyond hlen
  have hempty : (s.rxq.pops s.cfg.qcap s.rxq.count).count = 0 := by rw [Queue.count_pops, Nat.sub_self]
  have hall : (s.rxq.items s.cfg.qcap).take s.rxq.count = s.rxq.items s.cfg.qcap :=
    List.take_of_length_le (by simp)
  have hwaits (p : Nat) := microStep_readb_empty (n := n) (count := count.toNat) (out := s.rxq.items s.cfg.qcap)
    (s := s.setQueue .rx (s.rxq.pops s.cfg.qcap s.rxq.count)) p hq hempty
  refine ⟨s.rxq.pops s.cfg.qcap s.rxq.count, _, ?_, rfl, hempty, hwaits⟩
  refine (exec_eq_runAgent (.readb count) s h).trans (congrArg _ ?_)
  rw [issue_readb count hn, hn, TakesBytes.runAgent_take (takesBytes_loopReadb n count.toNat) hq hwf hbeyond.le le_rfl
    hlen, hall, loopReadb_of_more (by simpa using hbeyond)]
  exact runAgent_of_waiting hwaits _

/-- Settles O28: the loop takes the bytes there are, up to `count`; with more asked for, the next attempt finds RXQ empty
and ends the call. -/
theorem nonBlockingReadTakesWhatIsThere : Obligations.NonBlockingReadTakesWhatIsThere := by
  intro count s h hq hwf hlen
  obtain ⟨n, hn, -⟩ := caller_of_admits _ s h (by decide)
  have hring := Queue.ring_of_wf hwf
  have hloop : TakesBytes n count.toNat (loopReadnb n count.toNat) := takesBytes_loopReadnb n count.toNat
  by_cases hc : count.toNat ≤ s.rxq.count
  · have hmin : min count.toNat s.rxq.count = count.toNat := min_eq_left hc
    rw [hmin]
    refine ⟨s.rxq.pops s.cfg.qcap count.toNat, exec_of_answers (i := .readnb count)
      (u := s.setQueue .rx (s.rxq.pops s.cfg.qcap count.toNat)) h ?_ rfl rfl, hring.items_pops hc,
      Queue.count_pops _ _ _⟩
    have hout : ((s.rxq.items s.cfg.qcap).take count.toNat).length = count.toNat :=
      List.length_take_of_le (by simpa using hc)
    rw [issue_readnb count hn, hn, TakesBytes.runAgent_take hloop hq hwf le_rfl hc (by omega), loopReadnb_of_done hout.ge,
      runAgent_of_idle _ _ _ (agentIdle_answer _ _ _), hout, countResult]
  · have hmin : min count.toNat s.rxq.count = s.rxq.count := min_eq_right (by omega)
    rw [hmin]
    have hempty : (s.rxq.pops s.cfg.qcap s.rxq.count).count = 0 := by rw [Queue.count_pops, Nat.sub_self]
    have hitems : (s.rxq.items s.cfg.qcap).length = s.rxq.count := Queue.items_length _ _
    have hall (k : Nat) (hk : s.rxq.count ≤ k) : (s.rxq.items s.cfg.qcap).take k = s.rxq.items s.cfg.qcap :=
      List.take_of_length_le (by omega)
    refine ⟨s.rxq.pops s.cfg.qcap s.rxq.count, exec_of_answers (i := .readnb count)
      (u := s.setQueue .rx (s.rxq.pops s.cfg.qcap s.rxq.count)) h ?_ rfl rfl, ?_,
      Queue.count_pops _ _ _⟩
    · obtain ⟨p, ps, hp⟩ := List.exists_cons_of_length_pos (l := s.picks.drop s.rxq.count) (by simp; omega)
      rw [issue_readnb count hn, hn, TakesBytes.runAgent_take hloop hq hwf (by omega) le_rfl (by omega), hall _ le_rfl,
        loopReadnb_of_more (by omega), hp, runAgent_cons,
        microStep_readnb_empty (s := s.setQueue .rx (s.rxq.pops s.cfg.qcap s.rxq.count)) p hq hempty,
        runAgent_of_idle _ _ _ (agentIdle_answer _ _ _), hall _ (by omega), hitems, countResult]
    · rw [hring.items_pops le_rfl, List.drop_of_length_le hitems.le, List.drop_of_length_le (by omega)]

/-- The first attempt of READB on unallocated queues under the FAIL policy (rule R130). -/
theorem microStep_loopReadb_unallocated {n count : Nat} {s : State} (p : Nat) (hcount : 0 < count)
    (hq : s.qvalid = false) (hp : s.cfg.stoppedQueuePolicy = .fail) :
    microStep (.caller n) p (loopReadb n count [] s) = s.answer (.caller n) (.dres .receiveFailure) := by
  have hd : (s.setCaller n (.readb count [])).queueDenied = false := queueDenied_of_fail hp
  have ha : deqAnswer .rx (s.setCaller n (.readb count [])) = .fail := deqAnswer_fail hq
  rw [loopReadb_of_more hcount, microStep_setCaller, stepCaller, stepReadb, hd, if_neg Bool.false_ne_true, ha]
  exact answer_setCaller _ _ _ s

/-- The same under the FAULT policy. -/
theorem microStep_loopReadb_denied {n count : Nat} {s : State} (p : Nat) (hcount : 0 < count)
    (hq : s.qvalid = false) (hp : s.cfg.stoppedQueuePolicy = .fault) :
    microStep (.caller n) p (loopReadb n count [] s) = s.raiseFault (.caller n) 0x33#8 .queueInvalid := by
  have hd : (s.setCaller n (.readb count [])).queueDenied = true := queueDenied_of_fault hq hp
  rw [loopReadb_of_more hcount, microStep_setCaller, stepCaller, stepReadb, hd, if_pos rfl, raiseFault_setCaller]

/-- The first attempt of READNB on unallocated queues under the FAIL policy (rule R130). -/
theorem microStep_loopReadnb_unallocated {n count : Nat} {s : State} (p : Nat) (hcount : 0 < count)
    (hq : s.qvalid = false) (hp : s.cfg.stoppedQueuePolicy = .fail) :
    microStep (.caller n) p (loopReadnb n count [] s) = s.answer (.caller n) (.dres .receiveFailure) := by
  have hd : (s.setCaller n (.readnb count [])).queueDenied = false := queueDenied_of_fail hp
  have ha : deqAnswer .rx (s.setCaller n (.readnb count [])) = .fail := deqAnswer_fail hq
  rw [loopReadnb_of_more hcount, microStep_setCaller, stepCaller, stepReadnb, hd, if_neg Bool.false_ne_true, ha]
  exact answer_setCaller _ _ _ s

/-- The same under the FAULT policy. -/
theorem microStep_loopReadnb_denied {n count : Nat} {s : State} (p : Nat) (hcount : 0 < count)
    (hq : s.qvalid = false) (hp : s.cfg.stoppedQueuePolicy = .fault) :
    microStep (.caller n) p (loopReadnb n count [] s) = s.raiseFault (.caller n) 0x34#8 .queueInvalid := by
  have hd : (s.setCaller n (.readnb count [])).queueDenied = true := queueDenied_of_fault hq hp
  rw [loopReadnb_of_more hcount, microStep_setCaller, stepCaller, stepReadnb, hd, if_pos rfl, raiseFault_setCaller]

/-- Settles O29: both loops of no bytes answer at their head, and their first attempt on unallocated queues fails. -/
theorem readOfNothingAndReadFailure : Obligations.ReadOfNothingAndReadFailure := by
  intro count s
  have hpos (hne : count ≠ 0#32) : 0 < count.toNat := by bv_omega
  refine ⟨fun h => ?_, fun h => ?_⟩
  · obtain ⟨n, hn, -⟩ := caller_of_admits _ s h (by decide)
    refine ⟨exec_of_answers (i := .readb 0#32) h ?_ rfl rfl, fun hq hp hne hlen =>
      exec_of_first_step_answers (i := .readb count) h hlen fun p _ => ?_, fun hq hp hne hlen =>
      exec_of_first_step_faults (i := .readb count) h hlen fun p => ?_⟩
    · rw [issue_readb _ hn, hn]
      exact runAgent_of_idle _ _ _ (agentIdle_answer _ _ s)
    · rw [issue_readb _ hn, hn]
      exact microStep_loopReadb_unallocated p (hpos hne) hq hp
    · rw [issue_readb _ hn, hn]
      exact microStep_loopReadb_denied p (hpos hne) hq hp
  · obtain ⟨n, hn, -⟩ := caller_of_admits _ s h (by decide)
    refine ⟨exec_of_answers (i := .readnb 0#32) h ?_ rfl rfl, fun hq hp hne hlen =>
      exec_of_first_step_answers (i := .readnb count) h hlen fun p _ => ?_, fun hq hp hne hlen =>
      exec_of_first_step_faults (i := .readnb count) h hlen fun p => ?_⟩
    · rw [issue_readnb _ hn, hn]
      exact runAgent_of_idle _ _ _ (agentIdle_answer _ _ s)
    · rw [issue_readnb _ hn, hn]
      exact microStep_loopReadnb_unallocated p (hpos hne) hq hp
    · rw [issue_readnb _ hn, hn]
      exact microStep_loopReadnb_denied p (hpos hne) hq hp

end Sys2Proof.Machine
end

section
/-! SERVICE (43_service.md rules R180 to R188): the snapshot, the receive check, the transmit check, and the faults on
unallocated queues. -/

namespace Sys2Proof.Machine

/-! ### The ISR's operation in flight -/

@[simp] theorem setIsr_setIsr (p q : ServicePhase) (s : State) : (s.setIsr p).setIsr q = s.setIsr q := rfl

/-- The answer ends SERVICE: in which phase is forgotten. -/
@[simp] theorem answer_setIsr (p : ServicePhase) (r : Response) (s : State) :
    (s.setIsr p).answer .isr r = s.answer .isr r := rfl

@[simp] theorem raiseFault_setIsr (p : ServicePhase) (op : Byte) (code : FaultCode) (s : State) :
    (s.setIsr p).raiseFault .isr op code = s.raiseFault .isr op code := rfl

@[simp] theorem serviceGoto_setIsr (q : Option ServicePhase) (p : ServicePhase) (s : State) :
    serviceGoto q (s.setIsr p) = serviceGoto q s := by
  cases q <;> rfl

@[simp] theorem readLane_setIsr (a : Addr) (w : Nat) (lanes : Lanes) (pick : Nat) (p : ServicePhase) (s : State) :
    readLane a w lanes pick (s.setIsr p) = readLane a w lanes pick s := rfl

@[simp] theorem writeLane_setIsr (a : Addr) (v : Word) (w : Nat) (lanes : Lanes) (pick : Nat) (p : ServicePhase)
    (s : State) : writeLane a v w lanes pick (s.setIsr p) = (writeLane a v w lanes pick s).setIsr p := rfl

/-- The ISR's micro-step is that of its phase. -/
theorem microStep_setIsr (pick : Nat) (p : ServicePhase) (s : State) :
    microStep .isr pick (s.setIsr p) = stepService pick p (s.setIsr p) := rfl

/-- Once SERVICE has answered, its turn is over. -/
theorem runAgent_isr_answered (ps : List Nat) (r : Response) (s : State) :
    runAgent .isr ps (s.answer .isr r) = s.answer .isr r :=
  runAgent_of_idle _ _ _ (agentIdle_answer _ _ s)

theorem runAgent_isr_faulted (ps : List Nat) (op : Byte) (code : FaultCode) (s : State) :
    runAgent .isr ps (s.raiseFault .isr op code) = s.raiseFault .isr op code :=
  runAgent_of_idle _ _ _ (agentIdle_raiseFault _ _ _ s)

/-! ### The snapshot (rule R182) -/

/-- The two byte steps of the snapshot, in either order, with nothing between them. -/
theorem runAgent_snapshot (p q : Nat) (ps : List Nat) (s : State) :
    runAgent .isr (p :: q :: ps) (s.setIsr (.snapshot []))
      = runAgent .isr ps (serviceGoto (receivePhase s.status) s) := by
  have hwidth : (s.status.setWidth 32).setWidth 16 = s.status := by
    rw [BitVec.setWidth_setWidth_of_le _ (by decide), BitVec.setWidth_eq]
  simp only [runAgent_cons, microStep_setIsr, stepService, stepSnapshot, readLane_setIsr, setIsr_setIsr, setIsr_cfg,
    serviceGoto_setIsr, lanesDone_readLane_first, lanesDone_readLane_second, assemble_readLane_two, memRead_status,
    hwidth, Bool.false_eq_true, if_true, if_false]

theorem issue_service {s : State} (h : s.gie = true ∨ s.cfg.gatedService = .run) :
    issue .service s = s.setIsr (.snapshot []) := by
  rw [issue, issueService]
  split
  · rfl
  · next hgie => rw [h.resolve_left hgie]

/-- SERVICE after its snapshot. -/
theorem runAgent_issue_service {s : State} (hactive : s.active = .isr) (h : s.gie = true ∨ s.cfg.gatedService = .run)
    (hlen : 10 ≤ s.picks.length) :
    ∃ ps, 8 ≤ ps.length
      ∧ runAgent s.active s.picks (issue .service s) = runAgent .isr ps (serviceGoto (receivePhase s.status) s) := by
  match hp : s.picks, hlen with
  | p :: q :: ps, hlen =>
    refine ⟨ps, by simpa using hlen, ?_⟩
    rw [issue_service h, hactive, runAgent_snapshot]

/-! ### The receive check (rule R183) -/

/-- The block after the receive check of snapshot `v`. -/
def received (v : Half) (s : State) : State :=
  { s with
    bytesReceived := if receivesError v || receivesByte v then s.bytesReceived + 1#32 else s.bytesReceived
    receiveError := s.receiveError || receivesError v
      || (receivesByte v && (!s.qvalid || decide (s.rxq.count = s.cfg.qcap)))
    rxq := if receivesByte v && s.qvalid && decide (s.rxq.count ≠ s.cfg.qcap)
      then s.rxq.push s.cfg.qcap (s.store.read 2) else s.rxq }

section Receive
variable {v : Half} {s : State}

theorem received_of_error (he : receivesError v = true) : received v s = countReceived (flagReceiveError s) := by
  have hb : receivesByte v = false := by
    rw [receivesError] at he
    simp [receivesByte, he]
  simp [received, he, hb, countReceived, flagReceiveError]

theorem received_of_nothing (he : receivesError v = false) (hb : receivesByte v = false) : received v s = s := by
  simp [received, he, hb]

theorem received_of_room (he : receivesError v = false) (hb : receivesByte v = true) (hq : s.qvalid = true)
    (hc : s.rxq.count ≠ s.cfg.qcap) :
    received v s = (countReceived s).setQueue .rx (s.rxq.push s.cfg.qcap (s.store.read 2)) := by
  simp [received, he, hb, hq, hc, countReceived, State.setQueue]

theorem received_of_loss (he : receivesError v = false) (hb : receivesByte v = true)
    (hloss : s.qvalid = true → s.rxq.count = s.cfg.qcap) : received v s = flagReceiveError (countReceived s) := by
  cases hq : s.qvalid with
  | false => simp [received, he, hb, hq, countReceived, flagReceiveError]
  | true => simp [received, he, hb, hq, hloss hq, countReceived, flagReceiveError]

theorem byteRead_dataBase (s : State) : byteRead (dataBase s.cfg) s = s.store.read 2 := byteRead_statusBase_add 2#32 s

/-- V3 of a snapshot with RxError. -/
theorem runAgent_markError (p : Nat) (ps : List Nat) (v : Half) (s : State) :
    runAgent .isr (p :: ps) (s.setIsr (.markError v))
      = runAgent .isr ps (serviceGoto (transmitPhase v) (countReceived (flagReceiveError s))) :=
  congrArg (runAgent .isr ps) (serviceGoto_setIsr (transmitPhase v) _ (countReceived (flagReceiveError s)))

/-- V3 to V5 of a snapshot with a byte: it is read from DATA and counted. -/
theorem runAgent_readData (p q : Nat) (ps : List Nat) (v : Half) (s : State) :
    runAgent .isr (p :: q :: ps) (s.setIsr (.readData v))
      = runAgent .isr ps ((countReceived s).setIsr (.testFull v (s.store.read 2))) := by
  rw [← byteRead_dataBase s]
  rfl

/-- V6 to the end of the receive check: the byte is enqueued, or dropped with receiveError. -/
theorem runAgent_testFull (he : receivesError v = false) (hb : receivesByte v = true) (hd : s.queueDenied = false)
    {ps : List Nat} (hlen : 6 ≤ ps.length) :
    ∃ qs, 3 ≤ qs.length
      ∧ runAgent .isr ps ((countReceived s).setIsr (.testFull v (s.store.read 2)))
        = runAgent .isr qs (serviceGoto (transmitPhase v) (received v s)) := by
  match ps, hlen with
  | p :: q :: r :: ps, hlen =>
    rw [List.length_cons, List.length_cons, List.length_cons] at hlen
    have hd' (ph : ServicePhase) : ((countReceived s).setIsr ph).queueDenied = false := hd
    cases hq : s.qvalid with
    | false =>
      refine ⟨ps, by omega, ?_⟩
      rw [received_of_loss he hb (by simp [hq])]
      have hf (ph : ServicePhase) : queueFull .rx ((countReceived s).setIsr ph) = false := queueFull_of_invalid hq
      have ha (ph : ServicePhase) : enqAnswer .rx ((countReceived s).setIsr ph) = .fail := enqAnswer_fail hq
      simp only [runAgent_cons, microStep_setIsr, stepService, stepTestFull, stepEnqueue, hd', hf, ha, setIsr_setIsr,
        Bool.false_eq_true, if_false]
      rfl
    | true =>
      by_cases hc : s.rxq.count = s.cfg.qcap
      · refine ⟨r :: ps, by rw [List.length_cons]; omega, ?_⟩
        rw [received_of_loss he hb fun _ => hc]
        have hf (ph : ServicePhase) : queueFull .rx ((countReceived s).setIsr ph) = true :=
          (queueFull_of_valid (s := (countReceived s).setIsr ph) hq).trans (decide_eq_true hc)
        simp only [runAgent_cons, microStep_setIsr, stepService, stepTestFull, hd', hf, setIsr_setIsr,
          Bool.false_eq_true, if_false, if_true]
        rfl
      · refine ⟨r :: ps, by rw [List.length_cons]; omega, ?_⟩
        rw [received_of_room he hb hq hc]
        have hf (ph : ServicePhase) : queueFull .rx ((countReceived s).setIsr ph) = false :=
          (queueFull_of_valid (s := (countReceived s).setIsr ph) hq).trans (decide_eq_false hc)
        have ha (ph : ServicePhase) : enqAnswer .rx ((countReceived s).setIsr ph) = .ok := enqAnswer_ok hq hc
        simp only [runAgent_cons, microStep_setIsr, stepService, stepTestFull, stepEnqueue, hd', hf, ha, setIsr_setIsr,
          Bool.false_eq_true, if_false, enqState_of_ok _ _ _ (ha _)]
        rfl

/-- The receive check run to its end. -/
theorem runAgent_receive (v : Half) (hd : s.queueDenied = false) {ps : List Nat} (hlen : 8 ≤ ps.length) :
    ∃ qs, 3 ≤ qs.length
      ∧ runAgent .isr ps (serviceGoto (receivePhase v) s)
        = runAgent .isr qs (serviceGoto (transmitPhase v) (received v s)) := by
  match ps, hlen with
  | p :: q :: ps, hlen =>
    rw [List.length_cons, List.length_cons] at hlen
    cases he : receivesError v with
    | true =>
      refine ⟨q :: ps, by rw [List.length_cons]; omega, ?_⟩
      rw [received_of_error he, receivePhase, if_pos he]
      exact runAgent_markError p (q :: ps) v s
    | false =>
      cases hb : receivesByte v with
      | true =>
        rw [receivePhase, he, if_neg Bool.false_ne_true, if_pos hb]
        exact (runAgent_testFull he hb hd (by omega)).imp fun qs h => ⟨h.1, (runAgent_readData p q ps v s).trans h.2⟩
      | false =>
        refine ⟨p :: q :: ps, by simp only [List.length_cons]; omega, ?_⟩
        rw [received_of_nothing he hb, receivePhase, he, hb, if_neg Bool.false_ne_true, if_neg Bool.false_ne_true]

end Receive

/-! ### The transmit check (rule R184) -/

/-- A byte goes out: TXQ is allocated and not empty, and snapshot `v` asks for it. -/
def sendsByte (v : Half) (s : State) : Bool := transmits v && s.qvalid && decide (s.txq.count ≠ 0)

/-- The block after the transmit check of snapshot `v`, with DATA written by the lanes `ks`. -/
def transmitted (ks : List Nat) (v : Half) (s : State) : State :=
  { s with
    store := if sendsByte v s then (writeLanes (dataBase s.cfg) (s.txq.oldest.setWidth 32) ks s).store else s.store
    txq := if sendsByte v s then s.txq.pop s.cfg.qcap else s.txq
    transmitError := s.transmitError || (transmits v && !s.qvalid) }

section Transmit
variable {v : Half} {s : State}

theorem writeLanes_setQueue (a : Addr) (w : Word) (ks : List Nat) (sel : QueueSel) (q : Queue) (s : State) :
    writeLanes a w ks (s.setQueue sel q) = (writeLanes a w ks s).setQueue sel q := by
  induction ks generalizing s with
  | nil => rfl
  | cons k ks ih =>
    rw [writeLanes_cons, writeLanes_cons, ← ih]
    cases sel <;> rfl

theorem transmitted_of_nothing (ks : List Nat) (hv : transmits v = false) : transmitted ks v s = s := by
  simp [transmitted, sendsByte, hv]

theorem transmitted_of_unallocated (ks : List Nat) (hv : transmits v = true) (hq : s.qvalid = false) :
    transmitted ks v s = flagTransmitError s := by
  simp [transmitted, sendsByte, hv, hq, flagTransmitError]

theorem transmitted_of_empty (ks : List Nat) (hq : s.qvalid = true) (hc : s.txq.count = 0) :
    transmitted ks v s = s := by
  have hsends : sendsByte v s = false := by simp [sendsByte, hc]
  have hfails : (transmits v && !s.qvalid) = false := by simp [hq]
  simp [transmitted, hsends, hfails]

theorem transmitted_of_byte (ks : List Nat) (hv : transmits v = true) (hq : s.qvalid = true) (hc : s.txq.count ≠ 0) :
    transmitted ks v s
      = writeLanes (dataBase s.cfg) (s.txq.oldest.setWidth 32) ks (s.setQueue .tx (s.txq.pop s.cfg.qcap)) := by
  have hsends : sendsByte v s = true := by simp [sendsByte, hv, hq, hc]
  have hfails : (transmits v && !s.qvalid) = false := by simp [hq]
  rw [writeLanes_setQueue, writeLanes_eq]
  simp [transmitted, hsends, hfails, State.setQueue]

/-- V9's two byte steps, in either order. -/
theorem runAgent_send (p q : Nat) (ps : List Nat) (v : Half) (t : Byte) (s : State) :
    ∃ ks, ks.Perm (List.range 2)
      ∧ runAgent .isr (p :: q :: ps) (s.setIsr (.send v t []))
        = (writeLanes (dataBase s.cfg) (t.setWidth 32) ks s).answer .isr .ack := by
  obtain ⟨ks, hks, hwrite⟩ := writeLane_two (dataBase s.cfg) (t.setWidth 32) p q s
  refine ⟨ks, hks, ?_⟩
  simp only [runAgent_cons, microStep_setIsr, stepService, stepSend, writeLane_setIsr, setIsr_setIsr, setIsr_cfg,
    lanesDone_markLane_first, lanesDone_markLane_second, Bool.false_eq_true, if_true, if_false, answer_setIsr,
    runAgent_isr_answered]
  rw [← hwrite]
  rfl

/-- The transmit check run to its end, which is the end of SERVICE. -/
theorem runAgent_transmit (v : Half) (hd : s.queueDenied = false) {ps : List Nat} (hlen : 3 ≤ ps.length) :
    ∃ ks, ks.Perm (List.range 2)
      ∧ runAgent .isr ps (serviceGoto (transmitPhase v) s) = (transmitted ks v s).answer .isr .ack := by
  match ps, hlen with
  | p :: q :: r :: ps, _ =>
    have hd' (ph : ServicePhase) : (s.setIsr ph).queueDenied = false := hd
    cases hv : transmits v with
    | false =>
      refine ⟨List.range 2, .refl _, ?_⟩
      rw [transmitted_of_nothing _ hv, transmitPhase, hv, if_neg Bool.false_ne_true]
      exact runAgent_isr_answered _ _ s
    | true =>
      rw [transmitPhase, if_pos hv, serviceGoto, runAgent_cons, microStep_setIsr, stepService, stepDequeue, hd',
        if_neg Bool.false_ne_true]
      cases hq : s.qvalid with
      | false =>
        have ha (ph : ServicePhase) : deqAnswer .tx (s.setIsr ph) = .fail := deqAnswer_fail hq
        refine ⟨List.range 2, .refl _, ?_⟩
        rw [transmitted_of_unallocated _ hv hq, ha]
        exact runAgent_isr_answered _ _ (flagTransmitError s)
      | true =>
        by_cases hc : s.txq.count = 0
        · have ha (ph : ServicePhase) : deqAnswer .tx (s.setIsr ph) = .empty := deqAnswer_empty hq hc
          refine ⟨List.range 2, .refl _, ?_⟩
          rw [transmitted_of_empty _ hq hc, ha]
          exact runAgent_isr_answered _ _ s
        · have ha (ph : ServicePhase) : deqAnswer .tx (s.setIsr ph) = .ok := deqAnswer_ok hq hc
          obtain ⟨ks, hks, hsend⟩ := runAgent_send q r ps v s.txq.oldest (s.setQueue .tx (s.txq.pop s.cfg.qcap))
          refine ⟨ks, hks, ?_⟩
          rw [transmitted_of_byte ks hv hq hc, ha, deqState_of_ok _ _ (ha _)]
          exact hsend

end Transmit

/-- What the transmit check leaves in the store: the byte sent in DATA, or every byte as it was. -/
theorem read_transmitted {ks : List Nat} (hks : ks.Perm (List.range 2)) (v : Half) (s : State) :
    (∀ k, k ≠ 2 → k ≠ 3 → (transmitted ks v s).store.read k = s.store.read k)
      ∧ (transmitted ks v s).store.read 2 = (if sendsByte v s then s.txq.oldest else s.store.read 2)
      ∧ (transmitted ks v s).store.read 3 = (if sendsByte v s then 0#8 else s.store.read 3) := by
  cases hsends : sendsByte v s with
  | false => simp [transmitted, hsends]
  | true =>
    have hlane : laneOf (s.txq.oldest.setWidth 32) 0 = s.txq.oldest := extractLsb'_setWidth_of_le _ (by decide)
    have hread (k : Nat) (hk : k < 4) := (read_writeLanes_perm (v := s.txq.oldest.setWidth 32) s hks (by decide) hk).trans
      (storedByte_data s.cfg _ hk _)
    have hstore : (transmitted ks v s).store
        = (writeLanes (dataBase s.cfg) (s.txq.oldest.setWidth 32) ks s).store := by simp [transmitted, hsends]
    rw [hstore]
    refine ⟨fun k h2 h3 => ?_, (hread 2 (by decide)).trans hlane, hread 3 (by decide)⟩
    by_cases hk : k < 4
    · rw [hread k hk, if_neg h2, if_neg h3]
    · exact read_writeLanes_high _ _ _ _ (by omega)

/-! ### SERVICE run to completion -/

/-- The block after SERVICE, with DATA written by the lanes `ks`. -/
def served (ks : List Nat) (s : State) : State := transmitted ks s.status (received s.status s)

/-- SERVICE with no QUEUE_INVALID in reach. -/
theorem exec_service {s : State} (h : s.admits 0x40#8 = true) (hgate : s.gie = true ∨ s.cfg.gatedService = .run)
    (hpolicy : s.qvalid = true ∨ s.cfg.stoppedQueuePolicy = .fail) (hlen : 10 ≤ s.picks.length) :
    ∃ ks, ks.Perm (List.range 2)
      ∧ exec .service s = .next { served ks s with responses := (s.active, .ack) :: s.responses } := by
  obtain ⟨hactive, -⟩ := isr_of_admits s h
  have hd : s.queueDenied = false := hpolicy.elim (queueDenied_of_valid s) queueDenied_of_fail
  obtain ⟨ps, hps, hsnapshot⟩ := runAgent_issue_service hactive hgate hlen
  obtain ⟨qs, hqs, hreceive⟩ := runAgent_receive s.status hd hps
  obtain ⟨ks, hks, htransmit⟩ := runAgent_transmit (s := received s.status s) s.status hd hqs
  refine ⟨ks, hks, exec_of_answers (i := .service) (u := served ks s) h ?_ rfl rfl⟩
  rw [hsnapshot, hreceive, htransmit, hactive, served]

/-- Settles O32: the snapshot, the receive check and the transmit check, each run to its end. -/
theorem serviceMovesOneByteEachWay : Obligations.ServiceMovesOneByteEachWay := by
  intro s h hgate hpolicy hlen
  obtain ⟨ks, hks, hexec⟩ := exec_service h hgate hpolicy hlen
  exact ⟨(served ks s).store, receivesError s.status, receivesByte s.status, transmits s.status, rfl,
    (Bool.and_assoc _ _ _).symm, rfl, hexec, read_transmitted hks s.status (received s.status s)⟩

/-! ### The faults on unallocated queues -/

/-- The transmit check on unallocated queues under the FAULT policy. -/
theorem runAgent_transmit_denied {v : Half} {s : State} (hv : transmits v = true) (hd : s.queueDenied = true)
    {ps : List Nat} (hlen : 1 ≤ ps.length) :
    runAgent .isr ps (serviceGoto (transmitPhase v) s) = s.raiseFault .isr 0x40#8 .queueInvalid := by
  obtain ⟨p, ps, rfl⟩ := List.exists_cons_of_length_pos hlen
  have hd' (ph : ServicePhase) : (s.setIsr ph).queueDenied = true := hd
  rw [transmitPhase, if_pos hv, serviceGoto, runAgent_cons, microStep_setIsr, stepService, stepDequeue, hd', if_pos rfl,
    raiseFault_setIsr, runAgent_isr_faulted]

/-- Settles O34: a byte is counted and its full test faults; without a byte the transmit check faults. -/
theorem serviceOnUnallocatedQueuesFaults : Obligations.ServiceOnUnallocatedQueuesFaults := by
  intro s h hgate hq hp hlen
  obtain ⟨hactive, -⟩ := isr_of_admits s h
  have hd : s.queueDenied = true := queueDenied_of_fault hq hp
  obtain ⟨ps, hps, hsnapshot⟩ := runAgent_issue_service hactive hgate hlen
  match ps, hps with
  | p1 :: p2 :: p3 :: ps, hps =>
    refine ⟨fun h2 h0 h14 => exec_of_faults (i := .service) (u := countReceived s) h ?_ rfl rfl,
      fun h2 h1 h13 => exec_of_faults (i := .service) (u := countReceived (flagReceiveError s)) h ?_ rfl rfl,
      fun h2 hnone h1 h13 => exec_of_faults (i := .service) (u := s) h ?_ rfl rfl⟩
    · have he : receivesError s.status = false := h2
      have hb : receivesByte s.status = true := by
        rw [receivesByte, rxError, rxNotEmpty, rxEnable, h2, h0, h14]
        rfl
      have hd' (ph : ServicePhase) : ((countReceived s).setIsr ph).queueDenied = true := hd
      rw [hsnapshot, hactive, receivePhase, he, if_neg Bool.false_ne_true, if_pos hb, serviceGoto, runAgent_readData,
        runAgent_cons, microStep_setIsr, stepService, stepTestFull, hd', if_pos rfl, raiseFault_setIsr,
        runAgent_isr_faulted]
      rfl
    · have he : receivesError s.status = true := h2
      have hv : transmits s.status = true := by rw [transmits, txNotFull, txEnable, h1, h13, Bool.and_self]
      rw [hsnapshot, hactive, receivePhase, if_pos he, serviceGoto, runAgent_markError,
        runAgent_transmit_denied (ps := p2 :: p3 :: ps) (s := countReceived (flagReceiveError s)) hv hd (Nat.succ_pos _)]
      rfl
    · have he : receivesError s.status = false := h2
      have hb : receivesByte s.status = false := by
        rcases hnone with h0 | h14
        · rw [receivesByte, rxNotEmpty, h0, Bool.false_and, Bool.and_false]
        · rw [receivesByte, rxEnable, h14, Bool.and_false, Bool.and_false]
      have hv : transmits s.status = true := by rw [transmits, txNotFull, txEnable, h1, h13, Bool.and_self]
      rw [hsnapshot, hactive, receivePhase, he, hb, if_neg Bool.false_ne_true, if_neg Bool.false_ne_true,
        runAgent_transmit_denied hv hd (Nat.one_le_of_lt hps)]
      rfl

/-! ### The interrupt enable bit (rule R188) -/

/-- Flipping bit 7 of `store[1]` flips STATUS[15] and no other bit. -/
theorem status_of_flip {s : State} {m : Memory} (hkeep : ∀ k, k ≠ 1 → m.read k = s.store.read k)
    (hflip : m.read 1 = s.store.read 1 ^^^ 0x80#8) {i : Nat} (hi : i < 15) :
    ({ s with store := m } : State).status.getLsbD i = s.status.getLsbD i := by
  have hstatus : ({ s with store := m } : State).status = s.status ^^^ 0x8000#16 := by
    have hmask : 0x8000#16 = 0x80#8 ++ 0x00#8 := rfl
    simp only [State.status, hflip, hkeep 0 (by decide)]
    rw [hmask, BitVec.xor_append, BitVec.xor_zero]
  rw [hstatus, BitVec.getLsbD_xor]
  interval_cases i <;> simp

/-- Settles O36: what SERVICE does is a function of other STATUS bits, and it keeps `store[1]`. -/
theorem serviceIgnoresInterruptEnable : Obligations.ServiceIgnoresInterruptEnable := by
  intro s m h hgate hpolicy hlen hkeep hflip
  obtain ⟨m1, _, _, _, rfl, rfl, rfl, hexec, hother, hdata, hzero⟩ :=
    serviceMovesOneByteEachWay s h hgate hpolicy hlen
  obtain ⟨m2, _, _, _, rfl, rfl, rfl, hexec', hother', hdata', hzero'⟩ :=
    serviceMovesOneByteEachWay { s with store := m } h hgate hpolicy hlen
  have hbit (i : Nat) (hi : i < 15) := status_of_flip hkeep hflip hi
  simp only [hbit 0 (by decide), hbit 1 (by decide), hbit 2 (by decide), hbit 13 (by decide), hbit 14 (by decide),
    hkeep 2 (by decide), hkeep 3 (by decide)] at hexec' hdata' hzero'
  refine ⟨_, m2, hexec, hexec', fun k hk => ?_, ?_⟩
  · by_cases h2 : k = 2
    · rw [h2]
      exact hdata'.trans hdata.symm
    · by_cases h3 : k = 3
      · rw [h3]
        exact hzero'.trans hzero.symm
      · exact (hother' k h2 h3).trans ((hkeep k hk).trans (hother k h2 h3).symm)
  · exact (hother' 1 (by decide) (by decide)).trans
      (hflip.trans (congrArg (· ^^^ 0x80#8) (hother 1 (by decide) (by decide)).symm))

end Sys2Proof.Machine
end
